-- ==== Sys2Proof/Word.lean ====
section
/-! DEFINITION. The words of the part: bytes, fabric addresses, node IDs, and the numbers of records. -/

namespace Sys2Proof

/-- A byte is 8 bits (00_scope.md, Conventions). -/
abbrev Byte := BitVec 8

/-- A 40-bit fabric address (R18, R44). -/
abbrev FabricAddr := BitVec 40

/-- A fabric node ID field, 12 bits (00_scope.md, Terms). -/
abbrev NodeId := BitVec 12

/-- The 4-bit exchange number of a request. -/
abbrev Xno := BitVec 4

/-- Exchange record number, 0..7 (R18). -/
abbrev RecIx := Fin 8

/-- Window number, W0..W15 (R44). -/
abbrev WinIx := Fin 16

/-- Node slot number, N0..N31 (R52). -/
abbrev SlotIx := Fin 32

/-- Tag number, 0..31 (R96). -/
abbrev TagIx := Fin 32

/-- Retention buffer number, 0..3 (R119). -/
abbrev BufIx := Fin 4

/-- Incoming management slot number, 0..1 (R163). -/
abbrev MgmtIx := Fin 2

/-- A timer: stopped, or running with the interval it was started with, in µs (log 15). -/
abbrev Timer := Option Nat

end Sys2Proof
end

