-- ==== Sys2Proof/Syntax.lean ====
section
/-! DEFINITION. The commands of the part: one constructor of Instr per row of spec/opcode_table.json. -/

namespace Sys2Proof

/-- The five values of a CAP or CAPACK (Table 11-4). -/
structure CapFields where
  rateClass : Byte
  pieceMax : BitVec 16
  requestLimit : Byte
  pushLimit : Byte
  nodeId : BitVec 16
  deriving DecidableEq, Repr

/-- What an incoming management request asks: an RQR's byte count or an RQW's payload (R163). -/
inductive MgmtBody where
  | rqr (count : BitVec 16)
  | rqw (payload : List Byte)
  deriving DecidableEq, Repr

/-- Where a management write comes from: the line, under an xno, or the trunk, in an incoming slot (R59, R166; log 20). -/
inductive WriteOrigin where
  | line (xno : Xno)
  | trunk
  deriving DecidableEq, Repr

/-- The blocks that raise self-notices (R141). -/
inductive NoticeBlock where
  | tp | tu | pq | xu | cu
  deriving DecidableEq, Repr

/-- The commands. Each docstring names the row's rule. -/
inductive Instr where
  /-- POWER_ON_RESET (R17): RESETN rises; the straps sampled while it was low. -/
  | powerOnReset (sta : BitVec 5) (lrate : BitVec 3) (tpermit : Bool)
  /-- RESETN_LOW (R149): RESETN falls. -/
  | resetnLow
  /-- GOOD_CHARACTER (R3): a good character on the line. -/
  | goodCharacter (char : Byte)
  /-- FRAMING_ERROR (R1): a character whose stop bit is sampled low. -/
  | framingError
  /-- LINE_SILENCE (R4): a silence of more than 2 character times. -/
  | lineSilence
  /-- LENGTH_ABANDON (R3): the length byte of a frame arrives and is above 244. -/
  | lengthAbandon (length : Byte)
  /-- LINE_FRAME (R5): the characters with which a frame ends, the last one its second CRC byte. -/
  | lineFrame (chars : List Byte)
  /-- READ (R20): an addressed READ request, with its payload as received. -/
  | read (xno : Xno) (payload : List Byte)
  /-- WRITE (R25): an addressed WRITE request. -/
  | write (xno : Xno) (payload : List Byte)
  /-- PUSH (R69): an addressed or broadcast PUSH request. -/
  | push (broadcast : Bool) (xno : Xno) (payload : List Byte)
  /-- POLL (R138): an addressed POLL request. -/
  | poll (xno : Xno) (payload : List Byte)
  /-- TURNAROUND (R11): the turnaround wait ends. -/
  | turnaround
  /-- REPLY_END (R11): the stop bit of the last reply character ends. -/
  | replyEnd
  /-- STATION_WRITE (R7): a management write of the station setting alone. -/
  | stationWrite (origin : WriteOrigin) (value : Byte)
  /-- SETTINGS_WRITE (R171): a management write to the settings region. -/
  | settingsWrite (origin : WriteOrigin) (offset : BitVec 24) (data : List Byte)
  /-- MANAGEMENT_WRITE (R166): a management write to an offset with no row of its own. -/
  | managementWrite (origin : WriteOrigin) (offset : BitVec 24) (data : List Byte)
  /-- WINDOW_IMAGE_WRITE (R49): a management write to the window images. -/
  | windowImageWrite (origin : WriteOrigin) (offset : BitVec 24) (data : List Byte)
  /-- NODE_IMAGE_WRITE (R56): a management write to the node images. -/
  | nodeImageWrite (origin : WriteOrigin) (offset : BitVec 24) (data : List Byte)
  /-- RESTART (R176): command $01 with its argument. -/
  | restart (origin : WriteOrigin) (arg : Byte)
  /-- SEGRESET (R177): command $02. -/
  | segreset (origin : WriteOrigin) (arg : Byte)
  /-- CLEAR_COUNTERS (R178): command $03. -/
  | clearCounters (origin : WriteOrigin) (arg : Byte)
  /-- CLEAR_QUIET (R179): command $04; the argument is a node slot number. -/
  | clearQuiet (origin : WriteOrigin) (arg : Byte)
  /-- FLUSH_RETENTION (R130): command $05. -/
  | flushRetention (origin : WriteOrigin) (arg : Byte)
  /-- DROP_NOTICES (R142): command $06. -/
  | dropNotices (origin : WriteOrigin) (arg : Byte)
  /-- MANAGEMENT_REQUEST_SERVE (R168): MU takes the oldest held request it has not yet taken. -/
  | managementRequestServe
  /-- HOLD_TIMER_EXPIRY (R30): an exchange's hold timer expires. -/
  | holdTimerExpiry (record : RecIx)
  /-- COMPLETION_TIMER_EXPIRY (R108): a tag's completion timer expires. -/
  | completionTimerExpiry (tag : TagIx)
  /-- COOL_DOWN_EXPIRY (R110): a tag's cool-down expires. -/
  | coolDownExpiry (tag : TagIx)
  /-- RETENTION_EXPIRY (R125): a buffer's expiry timer expires. -/
  | retentionExpiry (buffer : BufIx)
  /-- SEGMENT_HOLD_EXPIRY (R149): the segment hold timer expires. -/
  | segmentHoldExpiry
  /-- REFOK_RISE (R150): REFOK rises. -/
  | refokRise
  /-- REFOK_FALL (R150): REFOK falls. -/
  | refokFall
  /-- ATTEMPT_TIMER_EXPIRY (R154): the attempt timer expires. -/
  | attemptTimerExpiry
  /-- CAP_INTERVAL_EXPIRY (R151): the CAP interval timer expires. -/
  | capIntervalExpiry
  /-- SETTLE_TIMER_EXPIRY (R155): the settle timer expires. -/
  | settleTimerExpiry
  /-- LINK_LOSS_TIMER_EXPIRY (R156): the link loss timer expires. -/
  | linkLossTimerExpiry
  /-- IDLE_TIMER_EXPIRY (R93): IA's idle timer expires. -/
  | idleTimerExpiry
  /-- TRUNK_PACKET_END (R89): the transmitter finishes the packet in SENDING. -/
  | trunkPacketEnd
  /-- TRUNK_BAD_PACKET (R146): a received packet, as its bytes, that fails the CRC or the form check. -/
  | trunkBadPacket (bytes : List Byte)
  /-- CAP (R152): a CAP from the far side. -/
  | cap (fields : CapFields)
  /-- CAPACK (R153): a CAPACK from the far side. -/
  | capack (fields : CapFields)
  /-- CREDIT (R162): cumulative request and push limits. -/
  | credit (requestLimit : Byte) (pushLimit : Byte)
  /-- KEEP (R148): a keep-alive. -/
  | keep
  /-- INCOMING_MANAGEMENT_REQUEST (R163): an RQR or RQW arrives. -/
  | incomingManagementRequest (tag : BitVec 5) (dest : NodeId) (source : NodeId) (addr : FabricAddr) (body : MgmtBody)
  /-- PSH (R148): a PSH arrives. -/
  | psh (dest : NodeId) (source : NodeId) (addr : FabricAddr) (payload : List Byte)
  /-- CPL (R100): a completion arrives. -/
  | cpl (dest : NodeId) (tag : TagIx) (status : Byte) (remaining : BitVec 16) (payload : List Byte)
  /-- NTC (R134): an event notice from a node arrives. -/
  | ntc (source : NodeId) (dest : NodeId) (code : BitVec 16) (arg : BitVec 32)
  /-- SELF_NOTICE (R136): NU takes the oldest self-notice the block has offered. -/
  | selfNotice (block : NoticeBlock)
  /-- PIECE_SUCCESS (R34): XU takes a piece success of a record. -/
  | pieceSuccess (record : RecIx)
  /-- PIECE_FAILURE (R35): XU takes a piece failure of a record. -/
  | pieceFailure (record : RecIx)
  /-- TIMEOUT_REPORT (R61): TU takes a timeout for a node slot. -/
  | timeoutReport (slot : SlotIx)
  /-- SUCCESS_REPORT (R62): TU takes a success for a node slot. -/
  | successReport (slot : SlotIx)
  /-- QUARANTINE_AT_XU (R38): XU takes the quarantine of a node slot. -/
  | quarantineAtXu (slot : SlotIx)
  /-- QUARANTINE_AT_PQ (R75): PQ takes the quarantine of a node slot. -/
  | quarantineAtPq (slot : SlotIx)
  /-- QUARANTINE_AT_IA (R61): IA takes the quarantine of a node slot. -/
  | quarantineAtIa (slot : SlotIx)
  /-- LEAVING_UP_AT_XU (R39): XU takes the link's leaving UP. -/
  | leavingUpAtXu
  /-- LEAVING_UP_AT_CU (R113): CU takes it. -/
  | leavingUpAtCu
  /-- LEAVING_UP_AT_PQ (R74): PQ takes it. -/
  | leavingUpAtPq
  /-- LEAVING_UP_AT_RU (R129): RU takes it. -/
  | leavingUpAtRu
  /-- LEAVING_UP_AT_IA (R158): IA takes it. -/
  | leavingUpAtIa
  /-- FAILED_AT_XU (R40): XU takes the link's entry to FAILED. -/
  | failedAtXu
  /-- FAILED_AT_PQ (R76): PQ takes the link's entry to FAILED. -/
  | failedAtPq
  deriving DecidableEq, Repr

end Sys2Proof
end

