-- ==== Sys2Proof/Config.lean ====
section
/-! DEFINITION. What this part fixes: POR defaults, capacities, intervals, the identity values, and the pin levels
that State.reset takes. The spec leaves no result of a command undefined, so no free value stands here. -/

namespace Sys2Proof.Config

/-- STA straps in State.reset. DESIGN CHOICE (log 1), unsafe: the board sets them; POWER_ON_RESET takes any. -/
def strapSta : BitVec 5 := 12#5

/-- LRATE straps in State.reset. DESIGN CHOICE (log 1), unsafe. -/
def strapLrate : BitVec 3 := 3#3

/-- TPERMIT strap in State.reset. DESIGN CHOICE (log 1), unsafe. -/
def strapTpermit : Bool := true

/-- Level of REFOK in State.reset. DESIGN CHOICE (log 1), unsafe. -/
def pinRefok : Bool := false

/-- Push Queue places (R68). -/
def pushPlaces : Nat := 16

/-- Push Queue payload bytes (R68). -/
def pushBytes : Nat := 1024

/-- Notice Queue entries (R132). -/
def noticeEntries : Nat := 32

/-- Largest payload length of a line frame (R3). -/
def maxLinePayload : Nat := 244

/-- Intervals of TP's and IA's timers, in µs (R93, R151, R155). -/
def attemptInterval : Nat := 1000
def capIntervalTime : Nat := 100
def settleTime : Nat := 200
def idleTime : Nat := 250

/-- A number of ms in the unit of Timer. -/
def ms (b : Byte) : Nat := b.toNat * 1000

end Sys2Proof.Config
end

