-- ==== Sys2Proof/Machine/State.lean ====
section
/-! DEFINITION. The state of the gateway as plain data, block by block, and State.reset. -/

namespace Sys2Proof.Machine

/-! ### The Line Port (01_the_line_port.md) -/

/-- Kinds of the four requests (R8). -/
inductive RequestKind where
  | read | write | push | poll
  deriving DecidableEq, Repr

/-- Kinds of the seven replies (R10). -/
inductive ReplyKind where
  | data | done | held | busy | fault | notice | empty
  deriving DecidableEq, Repr

/-- A request LP has accepted: whether it came by broadcast, its kind, xno and payload (R8). -/
structure LineRequest where
  broadcast : Bool
  kind : RequestKind
  xno : Xno
  payload : List Byte
  deriving DecidableEq, Repr

/-- The signature of a request (R12). -/
structure Signature where
  kind : RequestKind
  xno : Xno
  length : Nat
  crc : BitVec 16
  deriving DecidableEq, Repr

/-- A reply: its kind, xno and payload (R10, R13). -/
structure LineReply where
  kind : ReplyKind
  xno : Xno
  payload : List Byte
  deriving DecidableEq, Repr

/-- The receive assembler (R3). The bytes of IN_FRAME are those after the lead byte $A5. -/
inductive Assembler where
  | hunt
  | inFrame (bytes : List Byte)
  deriving DecidableEq, Repr

/-- What the end of a reply brings besides LDE falling: nothing, the station change of R7, the restart of R17. -/
inductive ReplyEffect where
  | nothing | station | restart
  deriving DecidableEq, Repr

/-- A reply handed to the transmitter, with what its end brings. -/
structure HandedReply where
  reply : LineReply
  effect : ReplyEffect
  deriving DecidableEq, Repr

/-- LP's transmitter (R11). WAIT holds the reply once its handler has decided it; SEND holds the whole frame. -/
inductive LineTransmitter where
  | idle
  | wait (reply : Option HandedReply)
  | send (frame : List Byte) (effect : ReplyEffect)
  deriving DecidableEq, Repr

structure LinePort where
  lrate : BitVec 3
  station : Byte
  assembler : Assembler
  accepted : List LineRequest
  transmitter : LineTransmitter
  lastReply : Option (Signature × LineReply)
  deriving DecidableEq, Repr

/-! ### The Exchange Unit (02) -/

/-- The FAULT codes of Table 11-3 ($01..$0C). -/
inductive FaultCode where
  | malformed | noWindow | access | range | nodeQuiet | link | xnoClash | timeout | remote | protocol | refused | cut
  deriving DecidableEq, Repr

/-- The result of an exchange: pending, OK, or a FAULT code with its detail (R18). -/
inductive ExchangeResult where
  | pending
  | ok
  | fault (code : FaultCode) (detail : BitVec 16)
  deriving DecidableEq, Repr

/-- States of an exchange record (R18). -/
inductive ExchangeState where
  | free | queued | active | ready | answered
  deriving DecidableEq, Repr

/-- The kind of an exchange or of a piece. -/
inductive ExchangeKind where
  | read | write
  deriving DecidableEq, Repr

/-- An exchange record (R18). The answer rank is its place in `ExchangeUnit.answerOrder`. `leftUp` is the model's own: the link has left
UP while the exchange was ACTIVE, so that RU takes no fill from it (R123; log 30). -/
structure Exchange where
  state : ExchangeState
  xno : Xno
  kind : ExchangeKind
  signature : Signature
  window : WinIx
  relaxed : Bool
  slot : SlotIx
  addr : FabricAddr
  requestedLength : Nat
  issueLength : Nat
  payload : List Byte
  readBuffer : List Byte
  retain : Option Bool
  nextOffset : Nat
  piecesIssued : Nat
  outstanding : Nat
  abandoned : Bool
  result : ExchangeResult
  holdTimer : Timer
  leftUp : Bool
  deriving DecidableEq, Repr

/-- A FREE record: every field zero. -/
def Exchange.free : Exchange where
  state := .free
  xno := 0
  kind := .read
  signature := ⟨.read, 0, 0, 0⟩
  window := 0
  relaxed := false
  slot := 0
  addr := 0
  requestedLength := 0
  issueLength := 0
  payload := []
  readBuffer := []
  retain := none
  nextOffset := 0
  piecesIssued := 0
  outstanding := 0
  abandoned := false
  result := .pending
  holdTimer := none
  leftUp := false

/-- The Exchange Table and the ANSWERED records, oldest first (R18, R28). -/
structure ExchangeUnit where
  records : Vector Exchange 8
  answerOrder : List RecIx
  deriving DecidableEq, Repr

/-! ### The Translation Unit (03) -/

/-- A window record (R44); the numeric fields have the widths of its image (Table 11-5). -/
structure Window where
  valid : Bool
  firstUnit : Byte
  lastUnit : Byte
  slot : SlotIx
  base : FabricAddr
  stride : Byte
  span : BitVec 32
  rightR : Bool
  rightW : Bool
  rightP : Bool
  retain : Bool
  depth : Byte
  relaxed : Bool
  deriving DecidableEq, Repr

/-- An invalid window slot: all fields zero (R44). -/
def Window.empty : Window := ⟨false, 0, 0, 0, 0, 0, 0, false, false, false, false, 0, false⟩

/-- States of a node slot (R52). -/
inductive NodeState where
  | unused | live | quiet
  deriving DecidableEq, Repr

/-- A node slot record (R52). -/
structure Node where
  state : NodeState
  nodeId : NodeId
  pieceSize : BitVec 16
  limit : Byte
  timeout : Byte
  threshold : Byte
  count : Nat
  deriving DecidableEq, Repr

/-- An UNUSED slot holds zero in every field (R52). -/
def Node.unused : Node := ⟨.unused, 0, 0, 0, 0, 0, 0⟩

structure TranslationUnit where
  windows : Vector Window 16
  nodes : Vector Node 32
  deriving DecidableEq, Repr

/-! ### The Push Queue (04) -/

/-- A push record (R67); its length field is the length of its payload. -/
structure Push where
  window : WinIx
  slot : SlotIx
  addr : FabricAddr
  payload : List Byte
  issued : Nat
  broadcast : Bool
  deriving DecidableEq, Repr

structure PushQueue where
  pushes : List Push
  deriving DecidableEq, Repr

/-! ### The Issue Arbiter (05) -/

/-- A member of the Order List: an exchange, or a push. The k-th push member stands for the k-th push of the Push Queue
(both are in acceptance order, R80). -/
inductive Member where
  | exchange (record : RecIx)
  | push
  deriving DecidableEq, Repr

/-- A trunk packet, by its fields (Table 11-4). -/
inductive Packet where
  | cap (fields : CapFields)
  | capack (fields : CapFields)
  | credit (requestLimit : Byte) (pushLimit : Byte)
  | keep
  | rqr (tag : BitVec 5) (dest : NodeId) (source : NodeId) (addr : FabricAddr) (count : BitVec 16)
  | rqw (tag : BitVec 5) (dest : NodeId) (source : NodeId) (addr : FabricAddr) (payload : List Byte)
  | psh (dest : NodeId) (source : NodeId) (addr : FabricAddr) (payload : List Byte)
  | cpl (dest : NodeId) (tag : BitVec 5) (status : Byte) (remaining : BitVec 16) (payload : List Byte)
  | ntc (source : NodeId) (dest : NodeId) (code : BitVec 16) (arg : BitVec 32)
  deriving DecidableEq, Repr

/-- What the end of a packet in SENDING brings: nothing; for a CAPACK, whether its claim was raised in the attempt in
progress (R152); for a management CPL, its slot, whether the slot is still held (R164), and whether a trunk SEGRESET is
pending on it (R177). -/
inductive PacketEffect where
  | nothing
  | capack (current : Bool)
  | managementCpl (slot : MgmtIx) (held : Bool) (segreset : Bool)
  deriving DecidableEq, Repr

/-- The trunk transmitter (R89), with the rate class the packet began at. -/
inductive TrunkTransmitter where
  | free
  | sending (packet : Packet) (rate : Byte) (effect : PacketEffect)
  deriving DecidableEq, Repr

/-- A class 3 claim (R92): the CPL, the slot it answers, whether that slot is still held, and whether a trunk SEGRESET is
pending on it (R177). -/
structure CplClaim where
  packet : Packet
  slot : MgmtIx
  held : Bool
  segreset : Bool
  deriving DecidableEq, Repr

structure IssueArbiter where
  orderList : List Member
  transmitter : TrunkTransmitter
  capClaim : Bool
  capackClaim : Bool
  creditClaim : Bool
  cplClaims : List CplClaim
  idleTimer : Timer
  deriving DecidableEq, Repr

/-! ### The Completion Unit (06) -/

/-- States of a tag (R96). -/
inductive TagState where
  | free | busy | cooling
  deriving DecidableEq, Repr

/-- The one timer of a tag (R96). -/
inductive TagTimer where
  | stopped
  | completion (interval : Nat)
  | coolDown (interval : Nat)
  deriving DecidableEq, Repr

/-- A tag record (R96). -/
structure Tag where
  state : TagState
  owner : Option RecIx
  start : Nat
  length : Nat
  kind : ExchangeKind
  received : Nat
  slot : SlotIx
  timeout : Byte
  timer : TagTimer
  deriving DecidableEq, Repr

/-- A FREE tag: fields zero, owner none. -/
def Tag.free : Tag := ⟨.free, none, 0, 0, .read, 0, 0, 0, .stopped⟩

structure CompletionUnit where
  tags : Vector Tag 32
  deriving DecidableEq, Repr

/-! ### The Retention Unit (07) -/

/-- A retention buffer (R119); its length field is the length of its data. -/
structure Buffer where
  valid : Bool
  window : WinIx
  slot : SlotIx
  addr : FabricAddr
  data : List Byte
  timer : Timer
  deriving DecidableEq, Repr

/-- An invalid buffer: valid clear, every other field zero, timer stopped (R119). -/
def Buffer.invalid : Buffer := ⟨false, 0, 0, 0, [], none⟩

/-- The buffers, and the valid ones, least recently used first (R119). -/
structure RetentionUnit where
  buffers : Vector Buffer 4
  useOrder : List BufIx
  deriving DecidableEq, Repr

/-! ### The Notice Unit (08) -/

/-- A Notice Queue entry (R132). -/
structure Notice where
  serial : Byte
  source : NodeId
  code : BitVec 16
  arg : BitVec 32
  count : Nat
  sent : Bool
  overrunReported : Bool
  deriving DecidableEq, Repr

structure NoticeUnit where
  queue : List Notice
  serial : Byte
  overrun : Bool
  deriving DecidableEq, Repr

/-! ### The Trunk Port (09) -/

/-- Link states (R149). -/
inductive LinkState where
  | isolated | awaitRef | negotiate | settle | up | failed
  deriving DecidableEq, Repr

/-- Reasons for leaving UP (R157). -/
inductive DownReason where
  | loss | refokFell | segreset | farCap
  deriving DecidableEq, Repr

/-- A request held in an incoming management slot (R163). -/
structure MgmtRequest where
  tag : BitVec 5
  source : NodeId
  addr : FabricAddr
  body : MgmtBody
  deriving DecidableEq, Repr

structure TrunkPort where
  link : LinkState
  nodeId : NodeId
  rateClass : Byte
  pieceMax : BitVec 16
  attempt : Nat
  farCap : Option CapFields
  acknowledged : Bool
  farCapack : Bool
  requestLimit : Byte
  requestConsumed : Byte
  pushLimit : Byte
  pushConsumed : Byte
  grantedRequest : Byte
  grantedPush : Byte
  slots : Vector (Option MgmtRequest) 2
  unserved : List MgmtIx
  segmentHold : Timer
  attemptTimer : Timer
  capInterval : Timer
  settle : Timer
  linkLoss : Timer
  deriving DecidableEq, Repr

/-! ### The Management Unit (10) -/

/-- The seven settings (R171). -/
structure Settings where
  hold : Byte
  retention : Byte
  segmentHold : Byte
  linkLoss : Byte
  station : Byte
  permit : Byte
  mask : Byte
  deriving DecidableEq, Repr

/-- The settings after POR, the station and the permit from their straps (R171). -/
def Settings.por (sta : BitVec 5) (tpermit : Bool) : Settings :=
  ⟨50, 5, 10, 2, sta.setWidth 8, if tpermit then 1 else 0, 0x7F⟩

/-- Settings, and the thirteen counters in the order of R174. -/
structure ManagementUnit where
  settings : Settings
  counters : Vector (BitVec 16) 13
  deriving DecidableEq, Repr

/-! ### Reports between blocks, made and not yet taken (log 4) -/

/-- A piece result as CU hands it to XU (R111). -/
inductive PieceResult where
  | success
  | failure (code : FaultCode) (detail : BitVec 16)
  deriving DecidableEq, Repr

/-- A report of CU to TU (R112). -/
inductive NodeReport where
  | success | timeout
  deriving DecidableEq, Repr

/-- A self-notice offered to NU (R135): source, code and argument are those of the moment it is offered. -/
structure Offer where
  block : NoticeBlock
  source : NodeId
  code : BitVec 16
  arg : BitVec 32
  deriving DecidableEq, Repr

structure Reports where
  pieceResults : List (RecIx × PieceResult)
  nodeReports : List (SlotIx × NodeReport)
  quietAtXu : List SlotIx
  quietAtPq : List SlotIx
  quietAtIa : List SlotIx
  leftAtXu : List DownReason
  leftAtCu : List DownReason
  leftAtPq : List DownReason
  leftAtRu : List DownReason
  leftAtIa : List DownReason
  failedAtXu : Nat
  failedAtPq : Nat
  offers : List Offer
  deriving DecidableEq, Repr

/-- No report waits. -/
def Reports.none : Reports := ⟨[], [], [], [], [], [], [], [], [], [], 0, 0, []⟩

/-! ### The whole machine -/

/-- The gateway: pins, the ten blocks, the reports between them, and the command queue, first in first out. -/
structure State where
  resetn : Bool
  refok : Bool
  lp : LinePort
  xu : ExchangeUnit
  tu : TranslationUnit
  pq : PushQueue
  ia : IssueArbiter
  cu : CompletionUnit
  ru : RetentionUnit
  nu : NoticeUnit
  tp : TrunkPort
  mu : ManagementUnit
  reports : Reports
  pending : List Instr
  deriving DecidableEq, Repr

/-- The part stops for nothing the spec describes: every FAULT and refusal of the spec is an answer after which it goes on
(log 21). So there is no fault to name; nobody raises one. -/
inductive Fault where
  deriving DecidableEq, Repr

inductive Refusal where
  /-- Raised by exec's arm of a command that has no meaning yet, and by nothing else; no arm raises it now. Safe: the model
  stops where the hardware goes on. -/
  | notModelled (mnemonic : String)
  deriving DecidableEq, Repr

/-- The machine right after POR (R17, R42, R66, R79, R95, R117, R131, R143, R165, R181), with the straps and the level of
REFOK that Config names (log 1), RESETN high, and an empty command queue. -/
def State.reset : State where
  resetn := true
  refok := Config.pinRefok
  lp := ⟨Config.strapLrate, Config.strapSta.setWidth 8, .hunt, [], .idle, none⟩
  xu := ⟨Vector.replicate 8 Exchange.free, []⟩
  tu := ⟨Vector.replicate 16 Window.empty, Vector.replicate 32 Node.unused⟩
  pq := ⟨[]⟩
  ia := ⟨[], .free, false, false, false, [], none⟩
  cu := ⟨Vector.replicate 32 Tag.free⟩
  ru := ⟨Vector.replicate 4 Buffer.invalid, []⟩
  nu := ⟨[], 0, false⟩
  tp := ⟨.awaitRef, 0, 0, 0, 0, none, false, false, 0, 0, 0, 0, 0, 0, Vector.replicate 2 none, [], none, none, none, none, none⟩
  mu := ⟨Settings.por Config.strapSta Config.strapTpermit, Vector.replicate 13 0⟩
  reports := Reports.none
  pending := []

/-- TRST: low while RESETN is low and while the link is ISOLATED (R149). -/
def State.trst (s : State) : Bool := s.resetn && s.tp.link != .isolated

/-- LDE: high while LP's transmitter is in SEND (R11); low while RESETN is low (R17). -/
def State.lde (s : State) : Bool :=
  s.resetn && match s.lp.transmitter with
    | .send _ _ => true
    | _ => false

/-- LTXD is held high: LP sends no character (R11, R17). -/
def State.ltxdIdle (s : State) : Bool := !s.lde

end Sys2Proof.Machine
end

