-- ==== Sys2Proof/Machine/Operands.lean ====
section
/-! DEFINITION. The forms of the operands: byte order, the two CRCs, line frames and payloads (Tables 11-1 to 11-3), trunk
packets (Table 11-4), and the window and node images (Tables 11-5 and 11-6). -/

namespace Sys2Proof.Machine

/-! ### Byte order: the most significant byte first (00_scope.md, Conventions) -/

/-- The number that bytes spell, most significant first. -/
def beNat : List Byte → Nat
  | [] => 0
  | b :: bs => b.toNat * 256 ^ bs.length + beNat bs

/-- The last `n` base-256 digits of `v`, most significant first. -/
def beBytes : Nat → Nat → List Byte
  | 0, _ => []
  | n + 1, v => beBytes n (v / 256) ++ [BitVec.ofNat 8 v]

/-- A Bool as bit `i` of a byte. -/
def bitAt (b : Bool) (i : Nat) : Byte := if b then BitVec.ofNat 8 (2 ^ i) else 0

/-- The byte at a position, 0 past the end. -/
def byteAt (bytes : List Byte) (i : Nat) : Byte := bytes.getD i 0

/-- `n` bytes from position `i`. -/
def slice (bytes : List Byte) (i n : Nat) : List Byte := (bytes.drop i).take n

/-! ### CRC-16 (R5) and CRC-32 (R183): most significant bit first, no reflection -/

def crc16Bit (r : BitVec 16) : BitVec 16 := if r.msb then (r <<< 1) ^^^ 0x1021#16 else r <<< 1

def crc16Byte (r : BitVec 16) (b : Byte) : BitVec 16 :=
  Nat.repeat crc16Bit 8 (r ^^^ (b.setWidth 16 <<< 8))

/-- CRC-16: polynomial $1021, initial value $FFFF, the result as it stands (R5). -/
def crc16 (bytes : List Byte) : BitVec 16 := bytes.foldl crc16Byte 0xFFFF#16

def crc32Bit (r : BitVec 32) : BitVec 32 := if r.msb then (r <<< 1) ^^^ 0x04C11DB7#32 else r <<< 1

def crc32Byte (r : BitVec 32) (b : Byte) : BitVec 32 :=
  Nat.repeat crc32Bit 8 (r ^^^ (b.setWidth 32 <<< 24))

/-- CRC-32: polynomial $04C11DB7, initial value $FFFFFFFF, the result complemented (R183). -/
def crc32 (bytes : List Byte) : BitVec 32 := ~~~ (bytes.foldl crc32Byte 0xFFFFFFFF#32)

/-! ### Line frames (Table 11-1) -/

/-- The kind code of a request (R8). -/
def RequestKind.code : RequestKind → BitVec 4
  | .read => 1
  | .write => 2
  | .push => 3
  | .poll => 4

/-- The request kind a kind code names; none for reply kinds and unknown kinds (R8). -/
def requestKind (code : BitVec 4) : Option RequestKind :=
  if code = 1 then some .read else if code = 2 then some .write else if code = 3 then some .push
  else if code = 4 then some .poll else none

/-- The kind code of a reply (R10, Table 11-3). -/
def ReplyKind.code : ReplyKind → BitVec 4
  | .data => 0x8
  | .done => 0x9
  | .held => 0xA
  | .busy => 0xB
  | .fault => 0xC
  | .notice => 0xD
  | .empty => 0xE

/-- A frame: lead $A5, station, control, length, payload, CRC-16 high byte first (Table 11-1, R5). -/
def frameOf (station : Byte) (kind : BitVec 4) (xno : Xno) (payload : List Byte) : List Byte :=
  let body := station :: (kind ++ xno) :: BitVec.ofNat 8 payload.length :: payload
  0xA5#8 :: (body ++ beBytes 2 (crc16 body).toNat)

/-- The signature of a request (R12): the payload CRC is over the payload alone. -/
def LineRequest.signature (r : LineRequest) : Signature := ⟨r.kind, r.xno, r.payload.length, crc16 r.payload⟩

/-- The form check of R9. -/
def LineRequest.wellFormed (r : LineRequest) : Bool :=
  match r.kind with
  | .read => r.payload.length = 5 && 1 ≤ (byteAt r.payload 4).toNat && (byteAt r.payload 4).toNat ≤ 240
  | .write => 5 ≤ r.payload.length && r.payload.length ≤ 244
  | .push => 5 ≤ r.payload.length && r.payload.length ≤ 244
  | .poll => r.payload.length = 2

/-- The unit field of a READ, WRITE or PUSH (Table 11-2). -/
def LineRequest.unit (r : LineRequest) : Byte := byteAt r.payload 0

/-- The 24-bit offset field (Table 11-2, R182). -/
def LineRequest.offset (r : LineRequest) : Nat := beNat (slice r.payload 1 3)

/-- The length field of a READ (Table 11-2). -/
def LineRequest.readLength (r : LineRequest) : Nat := (byteAt r.payload 4).toNat

/-- The data bytes of a WRITE or PUSH (Table 11-2). -/
def LineRequest.data (r : LineRequest) : List Byte := r.payload.drop 4

/-- The ack-valid flag of a POLL: bit 0 of its flags byte (R182). -/
def LineRequest.ackValid (r : LineRequest) : Bool := (byteAt r.payload 0).getLsbD 0

/-- The ack serial of a POLL, read whatever the flag holds (R182). -/
def LineRequest.ackSerial (r : LineRequest) : Byte := byteAt r.payload 1

/-- The payload of a WRITE to unit 0 (Table 11-2). -/
def unitZeroWrite (offset : BitVec 24) (data : List Byte) : List Byte := 0 :: beBytes 3 offset.toNat ++ data

/-- The FAULT codes (Table 11-3, R182). -/
def FaultCode.code : FaultCode → Byte
  | .malformed => 0x01
  | .noWindow => 0x02
  | .access => 0x03
  | .range => 0x04
  | .nodeQuiet => 0x05
  | .link => 0x06
  | .xnoClash => 0x07
  | .timeout => 0x08
  | .remote => 0x09
  | .protocol => 0x0A
  | .refused => 0x0B
  | .cut => 0x0C

/-- A detail from its high and its low byte (R182). -/
def detailOf (high low : Nat) : BitVec 16 := BitVec.ofNat 16 (high * 256 + low)

/-- The three payload bytes of a FAULT, on the line and in a trunk refusal (Table 11-3, R168). -/
def faultPayload (code : FaultCode) (detail : BitVec 16) : List Byte := code.code :: beBytes 2 detail.toNat

/-- The 11 payload bytes of a NOTICE (Table 11-3). -/
def noticePayload (n : Notice) (overrun : Bool) : List Byte :=
  n.serial :: bitAt overrun 0 :: (beBytes 2 n.source.toNat ++ beBytes 2 n.code.toNat ++ beBytes 4 n.arg.toNat
    ++ [BitVec.ofNat 8 n.count])

/-! ### Trunk packets (Table 11-4) -/

/-- The five fields of a CAP or CAPACK, in order (Table 11-4). -/
def capFieldBytes (f : CapFields) : List Byte :=
  f.rateClass :: beBytes 2 f.pieceMax.toNat ++ [f.requestLimit, f.pushLimit] ++ beBytes 2 f.nodeId.toNat

/-- The type byte and the fields of a packet, without its trailer. -/
def Packet.body : Packet → List Byte
  | .cap f => 0x11 :: capFieldBytes f
  | .capack f => 0x12 :: capFieldBytes f
  | .credit r p => [0x13, r, p]
  | .keep => [0x14]
  | .rqr tag dest source addr count =>
    0x21 :: tag.setWidth 8 :: (beBytes 2 dest.toNat ++ beBytes 2 source.toNat ++ beBytes 5 addr.toNat ++ beBytes 2 count.toNat)
  | .rqw tag dest source addr payload =>
    0x22 :: tag.setWidth 8 :: (beBytes 2 dest.toNat ++ beBytes 2 source.toNat ++ beBytes 5 addr.toNat
      ++ beBytes 2 payload.length ++ payload)
  | .psh dest source addr payload =>
    0x23 :: (beBytes 2 dest.toNat ++ beBytes 2 source.toNat ++ beBytes 5 addr.toNat ++ beBytes 2 payload.length ++ payload)
  | .cpl dest tag status remaining payload =>
    0x24 :: (beBytes 2 dest.toNat ++ [tag.setWidth 8, status] ++ beBytes 2 remaining.toNat ++ beBytes 2 payload.length ++ payload)
  | .ntc source dest code arg =>
    0x25 :: (beBytes 2 source.toNat ++ beBytes 2 dest.toNat ++ beBytes 2 code.toNat ++ beBytes 4 arg.toNat)

/-- A packet as it stands on the pair: the body and the CRC-32 trailer, most significant byte first (R183). -/
def Packet.bytes (p : Packet) : List Byte := p.body ++ beBytes 4 (crc32 p.body).toNat

/-- The part of the form check that a packet's typed fields leave open (R183): the counts of RQR, RQW, PSH and CPL, and the upper
four bits of a CAPACK's node ID field, which a CAP alone may have set. -/
def Packet.formOk : Packet → Bool
  | .rqr _ _ _ _ count => 1 ≤ count.toNat && count.toNat ≤ 512
  | .rqw _ _ _ _ payload => 1 ≤ payload.length && payload.length ≤ 512
  | .psh _ _ _ payload => 1 ≤ payload.length && payload.length ≤ 512
  | .cpl _ _ _ _ payload => payload.length ≤ 512
  | .cap _ => true
  | .capack f => f.nodeId.toNat < 4096
  | .credit _ _ => true
  | .keep => true
  | .ntc _ _ _ _ => true

/-- A node ID field: none when any of its upper four bits is set (R183). -/
def nodeIdField (bytes : List Byte) (i : Nat) : Option NodeId :=
  let v := beNat (slice bytes i 2)
  if v < 4096 then some (BitVec.ofNat 12 v) else none

/-- A tag field: none when any of its upper three bits is set (R183). -/
def tagField (bytes : List Byte) (i : Nat) : Option (BitVec 5) :=
  let v := (byteAt bytes i).toNat
  if v < 32 then some (BitVec.ofNat 5 v) else none

def capField (b : List Byte) : CapFields :=
  ⟨byteAt b 1, BitVec.ofNat 16 (beNat (slice b 2 2)), byteAt b 4, byteAt b 5, BitVec.ofNat 16 (beNat (slice b 6 2))⟩

/-- A 16-bit field, most significant byte first. -/
def word16 (bytes : List Byte) (i : Nat) : BitVec 16 := BitVec.ofNat 16 (beNat (slice bytes i 2))

/-- A 40-bit address field. -/
def addrField (bytes : List Byte) (i : Nat) : FabricAddr := BitVec.ofNat 40 (beNat (slice bytes i 5))

/-- The fields of an RQR body. -/
def rqrFields (b : List Byte) : Option Packet :=
  match tagField b 1, nodeIdField b 2, nodeIdField b 4 with
  | some tag, some dest, some source =>
    if b.length = 13 then some (.rqr tag dest source (addrField b 6) (word16 b 11)) else none
  | _, _, _ => none

/-- The fields of an RQW body. -/
def rqwFields (b : List Byte) : Option Packet :=
  match tagField b 1, nodeIdField b 2, nodeIdField b 4 with
  | some tag, some dest, some source =>
    if b.length = 13 + (word16 b 11).toNat then some (.rqw tag dest source (addrField b 6) (b.drop 13)) else none
  | _, _, _ => none

/-- The fields of a PSH body. -/
def pshFields (b : List Byte) : Option Packet :=
  match nodeIdField b 1, nodeIdField b 3 with
  | some dest, some source =>
    if b.length = 12 + (word16 b 10).toNat then some (.psh dest source (addrField b 5) (b.drop 12)) else none
  | _, _ => none

/-- The fields of a CPL body. -/
def cplFields (b : List Byte) : Option Packet :=
  match nodeIdField b 1, tagField b 3 with
  | some dest, some tag =>
    if b.length = 9 + (word16 b 7).toNat then some (.cpl dest tag (byteAt b 4) (word16 b 5) (b.drop 9)) else none
  | _, _ => none

/-- The fields of an NTC body. -/
def ntcFields (b : List Byte) : Option Packet :=
  match nodeIdField b 1, nodeIdField b 3 with
  | some source, some dest =>
    if b.length = 11 then some (.ntc source dest (word16 b 5) (BitVec.ofNat 32 (beNat (slice b 7 4)))) else none
  | _, _ => none

/-- The fields of a body whose length agrees with its type and its payload length field (R183). -/
def bodyFields (b : List Byte) : Option Packet :=
  let type := byteAt b 0
  if type = 0x11 then (if b.length = 8 then some (.cap (capField b)) else none)
  else if type = 0x12 then (if b.length = 8 then some (.capack (capField b)) else none)
  else if type = 0x13 then (if b.length = 3 then some (.credit (byteAt b 1) (byteAt b 2)) else none)
  else if type = 0x14 then (if b.length = 1 then some .keep else none)
  else if type = 0x21 then rqrFields b
  else if type = 0x22 then rqwFields b
  else if type = 0x23 then pshFields b
  else if type = 0x24 then cplFields b
  else if type = 0x25 then ntcFields b
  else none

/-- The CRC check and the form check of R146 and R183 on a received packet's bytes. -/
def parsePacket (bytes : List Byte) : Option Packet :=
  let body := bytes.take (bytes.length - 4)
  if bytes.length < 5 ∨ bytes.drop (bytes.length - 4) ≠ beBytes 4 (crc32 body).toNat then none
  else match bodyFields body with
    | some p => if p.formOk then some p else none
    | none => none

/-- The command that a received packet's bytes stand for: the row of its type, or TRUNK_BAD_PACKET (R146, R148). -/
def commandOfPacket (bytes : List Byte) : Instr :=
  match parsePacket bytes with
  | none => .trunkBadPacket bytes
  | some (.cap f) => .cap f
  | some (.capack f) => .capack f
  | some (.credit r p) => .credit r p
  | some .keep => .keep
  | some (.rqr tag dest source addr count) => .incomingManagementRequest tag dest source addr (.rqr count)
  | some (.rqw tag dest source addr payload) => .incomingManagementRequest tag dest source addr (.rqw payload)
  | some (.psh dest source addr payload) => .psh dest source addr payload
  | some (.cpl dest tag status remaining payload) => .cpl dest tag.toFin status remaining payload
  | some (.ntc source dest code arg) => .ntc source dest code arg

/-! ### Window images (Table 11-5, R184) -/

/-- Reasons of FAULT REFUSED (R50, R55, R56, R64, R166, R168, R171). -/
inductive RefusalReason where
  | overlap | unitZero | badRange | nodeSlot | inUse | dupNode | badValue | align | permit
  deriving DecidableEq, Repr

def RefusalReason.code : RefusalReason → Nat
  | .overlap => 1
  | .unitZero => 2
  | .badRange => 3
  | .nodeSlot => 4
  | .inUse => 5
  | .dupNode => 6
  | .badValue => 7
  | .align => 8
  | .permit => 9

/-- A node slot number from its byte, none above 31 (R184). -/
def slotOf (b : Byte) : Option SlotIx := if h : b.toNat < 32 then some ⟨b.toNat, h⟩ else none

/-- The window that an image with valid set describes; a node slot byte above 31 names no slot and gives slot 0 here (R184). -/
def windowOfImage (b : List Byte) : Window where
  valid := true
  firstUnit := byteAt b 2
  lastUnit := byteAt b 3
  slot := (slotOf (byteAt b 4)).getD 0
  base := BitVec.ofNat 40 (beNat (slice b 8 5))
  stride := byteAt b 5
  span := BitVec.ofNat 32 (beNat (slice b 13 4))
  rightR := (byteAt b 1).getLsbD 0
  rightW := (byteAt b 1).getLsbD 1
  rightP := (byteAt b 1).getLsbD 2
  retain := (byteAt b 0).getLsbD 1
  depth := byteAt b 6
  relaxed := (byteAt b 0).getLsbD 2

/-- The rights of a window as the sum of R $01, W $02, P $04 (R46, Table 11-5). -/
def Window.rights (w : Window) : Byte := bitAt w.rightR 0 + bitAt w.rightW 1 + bitAt w.rightP 2

/-- An undefined encoding of R184: a set bit among 7..3 of attributes or rights, or a non-zero byte at 7 or 17..31. -/
def windowImageUndefined (b : List Byte) : Bool :=
  (byteAt b 0).toNat ≥ 8 || (byteAt b 1).toNat ≥ 8 || byteAt b 7 != 0 || (slice b 17 15).any (· != 0)

/-- The 32 bytes of a window slot as they read back; an invalid slot reads as zeros (R60, R184). -/
def Window.image (w : Window) : List Byte :=
  if w.valid then
    [bitAt true 0 + bitAt w.retain 1 + bitAt w.relaxed 2, w.rights, w.firstUnit, w.lastUnit,
     BitVec.ofNat 8 w.slot.val, w.stride, w.depth, 0] ++ beBytes 5 w.base.toNat ++ beBytes 4 w.span.toNat
     ++ List.replicate 15 0
  else List.replicate 32 0

/-! ### Node images (Table 11-6, R185) -/

def NodeState.code : NodeState → Nat
  | .unused => 0
  | .live => 1
  | .quiet => 2

/-- The node record a LIVE image loads, with its count 0 (R56). -/
def nodeOfImage (b : List Byte) : Node where
  state := .live
  nodeId := BitVec.ofNat 12 (beNat (slice b 2 2))
  pieceSize := BitVec.ofNat 16 (beNat (slice b 4 2))
  limit := byteAt b 6
  timeout := byteAt b 7
  threshold := byteAt b 8
  count := 0

/-- Check 1 of R56 on an image whose state byte is not 0 (R185). -/
def nodeImageOk (b : List Byte) : Bool :=
  let id := beNat (slice b 2 2)
  let size := beNat (slice b 4 2)
  byteAt b 0 == 1 && 1 ≤ id && id ≤ 4094 && (size == 64 || size == 128 || size == 256 || size == 512)
    && 1 ≤ (byteAt b 6).toNat && (byteAt b 6).toNat ≤ 8 && 1 ≤ (byteAt b 7).toNat && (byteAt b 8).toNat ≤ 15
    && (slice b 11 5).all (· == 0)

/-- The 16 bytes of a node slot as they read: its record, whether it is in use, its BUSY tags (R60, R185). The in-use byte has its flag in
bit 0; its bits 7..1, which the spec does not state, read as zero (log 29). -/
def Node.image (n : Node) (inUse : Bool) (busy : Nat) : List Byte :=
  match n.state with
  | .unused => List.replicate 16 0
  | _ => [BitVec.ofNat 8 n.state.code, bitAt inUse 0] ++ beBytes 2 n.nodeId.toNat ++ beBytes 2 n.pieceSize.toNat
      ++ [n.limit, n.timeout, n.threshold, BitVec.ofNat 8 n.count, BitVec.ofNat 8 busy] ++ List.replicate 5 0

/-- Cuts a list into parts of `n` bytes, taking `k` of them. -/
def partsOf (n : Nat) : Nat → List Byte → List (List Byte)
  | 0, _ => []
  | k + 1, b => b.take n :: partsOf n k (b.drop n)

end Sys2Proof.Machine
end

