-- ==== Sys2Proof/Machine/Flags.lean ====
section
/-! DEFINITION. The status values the part keeps beside its data: the saturating counters (R174), the self-notice enable
mask (R135, R171), the codes of states, reasons and self-notices, and the cumulative credit counts (R161). -/

namespace Sys2Proof.Machine

/-- The thirteen counters, in the order of R174. -/
inductive Counter where
  | lineCrc | lineMalformed | busySent | resultsDropped | strayCpl | lateCpl | trunkCrc | trunkMisrouted
  | trunkRefusedExtra | broadcastDropped | pushBytesCut | noticesDropped | completionTimeouts
  deriving DecidableEq, Repr

/-- The counter's place in the counter region, $000300 + 2 × place (R174). -/
def Counter.ix : Counter → Fin 13
  | .lineCrc => 0
  | .lineMalformed => 1
  | .busySent => 2
  | .resultsDropped => 3
  | .strayCpl => 4
  | .lateCpl => 5
  | .trunkCrc => 6
  | .trunkMisrouted => 7
  | .trunkRefusedExtra => 8
  | .broadcastDropped => 9
  | .pushBytesCut => 10
  | .noticesDropped => 11
  | .completionTimeouts => 12

/-- An addition that saturates at 65535 (R73, R174). -/
def satAdd (c : BitVec 16) (n : Nat) : BitVec 16 := BitVec.ofNat 16 (min 65535 (c.toNat + n))

/-- The seven self-notices (R141). -/
inductive NoticeCode where
  | linkUp | linkDown | linkFailed | nodeQuiet | pushCut | resultDropped | stray
  deriving DecidableEq, Repr

/-- The enable bit of a self-notice, from the lowest upward (R171). -/
def NoticeCode.bit : NoticeCode → Nat
  | .linkUp => 0
  | .linkDown => 1
  | .linkFailed => 2
  | .nodeQuiet => 3
  | .pushCut => 4
  | .resultDropped => 5
  | .stray => 6

/-- The code of a self-notice, $F001..$F007 (R141). -/
def NoticeCode.code (c : NoticeCode) : BitVec 16 := BitVec.ofNat 16 (0xF001 + c.bit)

/-- The enable mask allows the code (R135, R171). -/
def maskAllows (mask : Byte) (c : NoticeCode) : Bool := mask.getLsbD c.bit

/-- Link state codes (R149). -/
def LinkState.code : LinkState → Nat
  | .isolated => 0
  | .awaitRef => 1
  | .negotiate => 2
  | .settle => 3
  | .up => 4
  | .failed => 5

/-- Reason codes of leaving UP (R157). -/
def DownReason.code : DownReason → Nat
  | .loss => 1
  | .refokFell => 2
  | .segreset => 3
  | .farCap => 4

/-- State codes of an exchange (R18). -/
def ExchangeState.code : ExchangeState → Nat
  | .free => 0
  | .queued => 1
  | .active => 2
  | .ready => 3
  | .answered => 4

/-- Kind codes of an exchange, $1 READ and $2 WRITE (R20, R30). -/
def ExchangeKind.code : ExchangeKind → Nat
  | .read => 1
  | .write => 2

/-- State codes of a tag (R96). -/
def TagState.code : TagState → Nat
  | .free => 0
  | .busy => 1
  | .cooling => 2

/-- Detail of FAULT LINK: the code of state FAILED (R35, R46). -/
def linkDetail : BitVec 16 := detailOf 0 LinkState.failed.code

/-- The credit available: limit minus consumed, mod 256 (R161). -/
def creditAvailable (limit consumed : Byte) : Byte := limit - consumed

/-- The limit after a CREDIT names a new value: a difference of 128 or more is stale (R162). -/
def creditRaise (limit new : Byte) : Byte := if (new - limit).toNat < 128 then new else limit

/-- The gateway's own CAP (R91, R151). -/
def gatewayCap : CapFields := ⟨4, 512, 2, 0, 0⟩

/-- A far CAP is acceptable (R152). -/
def capAcceptable (f : CapFields) : Bool :=
  1 ≤ f.rateClass.toNat && f.rateClass.toNat ≤ 4
    && (f.pieceMax == 64 || f.pieceMax == 128 || f.pieceMax == 256 || f.pieceMax == 512)
    && 1 ≤ f.nodeId.toNat && f.nodeId.toNat ≤ 4094

end Sys2Proof.Machine
end

