-- ==== Sys2Proof/Machine/Ops.lean ====
section
/-! DEFINITION. The operations every block shares: reading and writing a table, updating one block of State, raising a
counter, offering a self-notice, and what a command does while RESETN is low. -/

namespace Sys2Proof.Machine

/-! ### Tables of a fixed number of records -/

/-- The record at a number. -/
def look {α : Type} {n : Nat} (v : Vector α n) (i : Fin n) : α := v.get i

/-- The table with one record replaced. -/
def put {α : Type} {n : Nat} (v : Vector α n) (i : Fin n) (a : α) : Vector α n := v.set i a

/-- The table with every record passed through a function of its number and itself. -/
def mapIx {α : Type} {n : Nat} (f : Fin n → α → α) (v : Vector α n) : Vector α n := Vector.ofFn fun i => f i (look v i)

/-- The lowest number that satisfies a test. -/
def firstIx (n : Nat) (p : Fin n → Bool) : Option (Fin n) := (List.finRange n).find? p

/-- How many numbers satisfy a test. -/
def countIx (n : Nat) (p : Fin n → Bool) : Nat := (List.finRange n).countP p

/-! ### One block of State at a time -/

def State.onLp (f : LinePort → LinePort) (s : State) : State := { s with lp := f s.lp }
def State.onXu (f : ExchangeUnit → ExchangeUnit) (s : State) : State := { s with xu := f s.xu }
def State.onTu (f : TranslationUnit → TranslationUnit) (s : State) : State := { s with tu := f s.tu }
def State.onPq (f : PushQueue → PushQueue) (s : State) : State := { s with pq := f s.pq }
def State.onIa (f : IssueArbiter → IssueArbiter) (s : State) : State := { s with ia := f s.ia }
def State.onCu (f : CompletionUnit → CompletionUnit) (s : State) : State := { s with cu := f s.cu }
def State.onRu (f : RetentionUnit → RetentionUnit) (s : State) : State := { s with ru := f s.ru }
def State.onNu (f : NoticeUnit → NoticeUnit) (s : State) : State := { s with nu := f s.nu }
def State.onTp (f : TrunkPort → TrunkPort) (s : State) : State := { s with tp := f s.tp }
def State.onMu (f : ManagementUnit → ManagementUnit) (s : State) : State := { s with mu := f s.mu }
def State.onReports (f : Reports → Reports) (s : State) : State := { s with reports := f s.reports }

/-! ### Counters and self-notices -/

/-- Adds to a counter, saturating (R174). -/
def State.bump (c : Counter) (n : Nat) (s : State) : State :=
  s.onMu fun m => { m with counters := put m.counters c.ix (satAdd (look m.counters c.ix) n) }

/-- The block that raises a self-notice (R141). -/
def NoticeCode.block : NoticeCode → NoticeBlock
  | .linkUp => .tp
  | .linkDown => .tp
  | .linkFailed => .tp
  | .nodeQuiet => .tu
  | .pushCut => .pq
  | .resultDropped => .xu
  | .stray => .cu

/-- Offers a self-notice to NU when the enable mask allows its code; its source is the node ID held now (R135). -/
def State.offer (c : NoticeCode) (arg : Nat) (s : State) : State :=
  if maskAllows s.mu.settings.mask c then
    s.onReports fun r => { r with offers := r.offers ++ [⟨c.block, s.tp.nodeId, c.code, BitVec.ofNat 32 arg⟩] }
  else s

/-! ### While RESETN is low -/

/-- No block takes traffic and no timer runs while RESETN is low (R17, R79, R117, R131, R143, R165, R181). -/
def State.whenRunning (s : State) (f : State → State) : State := if s.resetn then f s else s

end Sys2Proof.Machine
end

