-- ==== Sys2Proof/Machine/Notices.lean ====
section
/-! DEFINITION. NU's operations: an arrival, the acknowledgement, the reply to a POLL, and emptying (08_notices.md). -/

namespace Sys2Proof.Machine

/-- An entry holds a key: source node, code and argument (R132). -/
def Notice.hasKey (n : Notice) (source : NodeId) (code : BitVec 16) (arg : BitVec 32) : Bool :=
  n.source == source && n.code == code && n.arg == arg

/-- The queue with one added to the repeat count of the unsent entry that holds the key, saturating at 255; none when no
unsent entry holds it (R136 case 1). -/
def foldNotice (source : NodeId) (code : BitVec 16) (arg : BitVec 32) : List Notice → Option (List Notice)
  | [] => none
  | n :: ns =>
    if !n.sent && n.hasKey source code arg then some ({ n with count := min 255 (n.count + 1) } :: ns)
    else (foldNotice source code arg ns).map (n :: ·)

/-- NU takes an arrival whole, by the first case of R136 that applies; a drop is by R137. -/
def State.noticeArrives (source : NodeId) (code : BitVec 16) (arg : BitVec 32) (s : State) : State :=
  match foldNotice source code arg s.nu.queue with
  | some q => s.onNu fun u => { u with queue := q }
  | none =>
    if s.nu.queue.length < Config.noticeEntries then
      s.onNu fun u =>
        { u with queue := u.queue ++ [⟨u.serial, source, code, arg, 1, false, false⟩], serial := u.serial + 1 }
    else (s.onNu fun u => { u with overrun := true }).bump .noticesDropped 1

/-- First step of a POLL: the acknowledgement (R138). -/
def NoticeUnit.acknowledge (ackValid : Bool) (serial : Byte) (u : NoticeUnit) : NoticeUnit :=
  match u.queue with
  | [] => u
  | h :: rest =>
    if ackValid && h.sent && h.serial == serial then
      { u with queue := rest, overrun := u.overrun && !h.overrunReported }
    else u

/-- Second step of a POLL: the head is marked sent, and overrun reported when the flag is set (R139). -/
def NoticeUnit.markSent (u : NoticeUnit) : NoticeUnit :=
  match u.queue with
  | [] => u
  | h :: rest => { u with queue := { h with sent := true, overrunReported := h.overrunReported || u.overrun } :: rest }

/-- The reply of a POLL, on the queue as the acknowledgement left it (R139). -/
def NoticeUnit.pollReply (u : NoticeUnit) : ReplyKind × List Byte :=
  match u.queue with
  | [] => (.empty, [])
  | h :: _ => (.notice, noticePayload h u.overrun)

/-- Empties the queue and clears the overrun flag; the serial counter is kept (R142, R143). -/
def NoticeUnit.emptied (u : NoticeUnit) : NoticeUnit := { u with queue := [], overrun := false }

end Sys2Proof.Machine
end

