-- ==== Sys2Proof/Machine/Retention.lean ====
section
/-! DEFINITION. RU's operations: hit, fill, invalidation, and voiding of READ fills (07_retention_buffers.md). -/

namespace Sys2Proof.Machine

/-- Two address ranges share at least one address (R126). -/
def rangesOverlap (a₁ l₁ a₂ l₂ : Nat) : Bool := max a₁ a₂ < min (a₁ + l₁) (a₂ + l₂)

/-- A valid buffer contains a request (R121). -/
def Buffer.contains (b : Buffer) (window : WinIx) (addr : FabricAddr) (length : Nat) : Bool :=
  b.valid && b.window == window && b.addr.toNat ≤ addr.toNat && addr.toNat + length ≤ b.addr.toNat + b.data.length

/-- A buffer of the node slot whose range shares an address with the write's range (R126). -/
def Buffer.overlaps (b : Buffer) (slot : SlotIx) (addr : FabricAddr) (length : Nat) : Bool :=
  b.slot == slot && rangesOverlap b.addr.toNat b.data.length addr.toNat length

/-- Invalidates the valid buffers that satisfy a test; their use ranks go and the others close up (R119). -/
def RetentionUnit.invalidate (p : Buffer → Bool) (u : RetentionUnit) : RetentionUnit where
  buffers := mapIx (fun _ b => if b.valid && p b then Buffer.invalid else b) u.buffers
  useOrder := u.useOrder.filter fun i => !p (look u.buffers i)

/-- The buffer of the highest use rank that contains the request (R121). -/
def RetentionUnit.hit (window : WinIx) (addr : FabricAddr) (length : Nat) (u : RetentionUnit) : Option BufIx :=
  u.useOrder.reverse.find? fun i => (look u.buffers i).contains window addr length

/-- A hit restarts the expiry timer and moves the buffer to the highest rank (R119, R121). -/
def RetentionUnit.touch (i : BufIx) (interval : Nat) (u : RetentionUnit) : RetentionUnit where
  buffers := put u.buffers i { look u.buffers i with timer := some interval }
  useOrder := u.useOrder.filter (· != i) ++ [i]

/-- The bytes a hit returns (R121). -/
def Buffer.bytesAt (b : Buffer) (addr : FabricAddr) (length : Nat) : List Byte :=
  slice b.data (addr.toNat - b.addr.toNat) length

/-- The buffer chosen for a fill: the identical block, else the lowest invalid buffer, else use rank 1 (R124). -/
def RetentionUnit.fillTarget (window : WinIx) (addr : FabricAddr) (length : Nat) (u : RetentionUnit) : Option BufIx :=
  match firstIx 4 fun i =>
      (look u.buffers i).valid && (look u.buffers i).window == window && (look u.buffers i).addr == addr
        && (look u.buffers i).data.length == length with
  | some i => some i
  | none =>
    match firstIx 4 fun i => !(look u.buffers i).valid with
    | some i => some i
    | none => u.useOrder.head?

/-- Takes a fill (R124): the chosen buffer takes the fields, its timer starts, it has the highest rank. -/
def RetentionUnit.fill (window : WinIx) (slot : SlotIx) (addr : FabricAddr) (data : List Byte) (interval : Nat)
    (u : RetentionUnit) : RetentionUnit :=
  match u.fillTarget window addr data.length with
  | some i =>
    { buffers := put u.buffers i ⟨true, window, slot, addr, data, some interval⟩
      useOrder := u.useOrder.filter (· != i) ++ [i] }
  | none => u

/-- An exchange is QUEUED or ACTIVE. -/
def Exchange.inWork (e : Exchange) : Bool := e.state == .queued || e.state == .active

/-- Clears the retain flag of the QUEUED and ACTIVE READ exchanges that satisfy a test (R127). -/
def ExchangeUnit.void (p : Exchange → Bool) (u : ExchangeUnit) : ExchangeUnit :=
  { u with records := mapIx (fun _ e =>
      if e.inWork && e.kind == .read && e.retain == some true && p e then { e with retain := some false } else e) u.records }

/-- The link leaves UP: what an ACTIVE exchange fetches fills no buffer, whenever XU takes its results (R123, R129; log 30). -/
def ExchangeUnit.linkLeft (u : ExchangeUnit) : ExchangeUnit :=
  { u with records := mapIx (fun _ e => if e.state = .active then { e with leftUp := true } else e) u.records }

/-- A READ exchange of the node slot whose fetched range shares an address with a write's range (R127). -/
def Exchange.fetchOverlaps (e : Exchange) (slot : SlotIx) (addr : FabricAddr) (length : Nat) : Bool :=
  e.slot == slot && rangesOverlap e.addr.toNat e.issueLength addr.toNat length

/-- What RU does when a WRITE exchange or a push is accepted (R126, R127). -/
def State.writeAccepted (slot : SlotIx) (addr : FabricAddr) (length : Nat) (s : State) : State :=
  (s.onRu (·.invalidate (·.overlaps slot addr length))).onXu (·.void (·.fetchOverlaps slot addr length))

/-- What RU does for an accepted window image of a slot (R49, R127, R128). -/
def State.windowAccepted (w : WinIx) (s : State) : State :=
  (s.onRu (·.invalidate (·.window == w))).onXu (·.void (·.window == w))

/-- What RU does for an accepted node image of a slot (R57, R127, R128). -/
def State.nodeAccepted (n : SlotIx) (s : State) : State :=
  (s.onRu (·.invalidate (·.slot == n))).onXu (·.void (·.slot == n))

/-- Every buffer is invalidated (R129, R130). -/
def State.buffersInvalidated (s : State) : State := s.onRu (·.invalidate fun _ => true)

/-- FLUSH_RETENTION: every buffer invalidated, every QUEUED or ACTIVE READ voided (R130). -/
def State.flushed (s : State) : State := s.buffersInvalidated.onXu (·.void fun _ => true)

end Sys2Proof.Machine
end

