-- ==== Sys2Proof/Machine/Exchanges.lean ====
section
/-! DEFINITION. XU's operations on a record: freeing, recording a fault, abandoning, entering READY, and delivering a result
(02_exchanges_and_the_exchange_table.md). -/

namespace Sys2Proof.Machine

/-- QUEUED, ACTIVE and READY are the live states (R18). -/
def Exchange.live (e : Exchange) : Bool := e.state == .queued || e.state == .active || e.state == .ready

/-- The exchange has unissued pieces (R18). -/
def Exchange.hasUnissued (e : Exchange) : Bool := e.nextOffset < e.issueLength && !e.abandoned

/-- The record at a number. -/
def State.record (s : State) (i : RecIx) : Exchange := look s.xu.records i

/-- One record replaced. -/
def State.setRecord (i : RecIx) (e : Exchange) (s : State) : State := s.onXu fun u => { u with records := put u.records i e }

/-- Frees a record: FREE, hold timer stopped, out of the answer ranks (R21, R24, R28, R30, R31). -/
def State.freeRecord (i : RecIx) (s : State) : State :=
  s.onXu fun u => { records := put u.records i Exchange.free, answerOrder := u.answerOrder.filter (· != i) }

/-- The hold timer, started with the setting in force (R29). -/
def State.holdInterval (s : State) : Timer := some (Config.ms s.mu.settings.hold)

/-- The first fault recorded stands (R35, R38, R39, R40). -/
def Exchange.withFault (code : FaultCode) (detail : BitVec 16) (e : Exchange) : Exchange :=
  if e.result = .pending then { e with result := .fault code detail } else e

/-- The exchange leaves the Order List. -/
def State.dropMember (i : RecIx) (s : State) : State :=
  s.onIa fun a => { a with orderList := a.orderList.filter (· != .exchange i) }

/-- The exchange gives up its unissued pieces (R36). -/
def State.abandon (i : RecIx) (s : State) : State :=
  (s.setRecord i { s.record i with abandoned := true }).dropMember i

/-- A READ that becomes READY with OK and its retain flag set is offered to RU, which takes the fill only in UP, and not if the link has
left UP since the exchange became ACTIVE (R37, R123; log 30). -/
def State.offerFill (e : Exchange) (s : State) : State :=
  if e.kind = .read ∧ e.result = .ok ∧ e.retain = some true ∧ e.leftUp = false ∧ s.tp.link = .up then
    s.onRu (·.fill e.window e.slot e.addr (e.readBuffer.take e.issueLength) (Config.ms s.mu.settings.retention))
  else s

/-- Entry to READY (R37): a pending result becomes OK, the hold timer starts, the fill is offered. -/
def State.enterReady (i : RecIx) (s : State) : State :=
  let e := s.record i
  let e' := { e with state := .ready, result := if e.result = .pending then .ok else e.result, holdTimer := s.holdInterval }
  (s.setRecord i e').offerFill e'

/-- XU examines an exchange for READY (R37). -/
def State.examine (i : RecIx) (s : State) : State :=
  let e := s.record i
  if e.inWork ∧ e.outstanding = 0 ∧ e.hasUnissued = false then s.enterReady i else s

/-- Records a fault, abandons, and examines for READY (R38, R39, R40). -/
def State.finalise (code : FaultCode) (detail : BitVec 16) (i : RecIx) (s : State) : State :=
  ((s.setRecord i ((s.record i).withFault code detail)).abandon i).examine i

/-- XU takes a piece success (R34). -/
def State.takeSuccess (i : RecIx) (s : State) : State :=
  let e := s.record i
  (s.setRecord i { e with outstanding := e.outstanding - 1 }).examine i

/-- XU takes a piece failure (R35). An exchange with no unissued pieces is not abandoned by it: its abandoned flag stays as it is
(log 27). -/
def State.takeFailure (i : RecIx) (code : FaultCode) (detail : BitVec 16) (s : State) : State :=
  let e := s.record i
  let s₁ := s.setRecord i ({ e with outstanding := e.outstanding - 1 }.withFault code detail)
  (if e.hasUnissued then s₁.abandon i else s₁).examine i

/-- Passes every record, lowest first, through a step. -/
def State.forRecords (f : RecIx → State → State) (s : State) : State := (List.finRange 8).foldl (fun t i => f i t) s

/-- XU takes the quarantine of a node slot (R38). -/
def State.quarantineRecord (slot : SlotIx) (i : RecIx) (s : State) : State :=
  let e := s.record i
  if e.inWork ∧ e.slot = slot ∧ e.hasUnissued then s.finalise .nodeQuiet (detailOf 0 slot.val) i else s

/-- XU takes the link's leaving UP, by an exchange's state (R39). -/
def State.cutRecord (reason : DownReason) (i : RecIx) (s : State) : State :=
  if (s.record i).state = .active then s.finalise .cut (detailOf 0 reason.code) i else s

/-- XU takes the entry to FAILED, by an exchange's state (R40). -/
def State.failRecord (i : RecIx) (s : State) : State :=
  if (s.record i).state = .queued then s.finalise .link linkDetail i else s

/-- The reply that a result calls for (R26). -/
def Exchange.resultReply (e : Exchange) : ReplyKind × List Byte :=
  match e.result with
  | .fault code detail => (.fault, faultPayload code detail)
  | _ =>
    match e.kind with
    | .read => (.data, e.readBuffer.take e.requestedLength)
    | .write => (.done, [])

/-- A repeat collects the result of a READY exchange: it becomes ANSWERED, newest rank, hold timer restarted (R26, R28). -/
def State.deliver (i : RecIx) (s : State) : State :=
  s.onXu fun u =>
    { records := put u.records i { look u.records i with state := .answered, holdTimer := s.holdInterval }
      answerOrder := u.answerOrder.filter (· != i) ++ [i] }

/-- A replay of an ANSWERED exchange restarts its hold timer; its rank is unchanged (R27). -/
def State.replayAnswered (i : RecIx) (s : State) : State :=
  s.setRecord i { s.record i with holdTimer := s.holdInterval }

/-- The hold timer of a READY exchange expires: freed, counted, offered (R30). -/
def State.dropResult (i : RecIx) (s : State) : State :=
  let e := s.record i
  ((s.freeRecord i).bump .resultsDropped 1).offer .resultDropped (e.xno.toNat * 256 + e.kind.code)

/-- A hold timer expires, by the record's state (R30, R31); a stopped timer does not expire (log 3). -/
def State.holdExpires (i : RecIx) (s : State) : State :=
  let e := s.record i
  if e.holdTimer = none then s
  else match e.state with
    | .ready => s.dropResult i
    | .answered => s.freeRecord i
    | .free => s
    | .queued => s
    | .active => s

end Sys2Proof.Machine
end

