-- ==== Sys2Proof/Machine/Pushes.lean ====
section
/-! DEFINITION. PQ's operations: capacity, the cut of the head, the QUIET test of the head, and emptying at RESTART
(04_the_push_queue.md). -/

namespace Sys2Proof.Machine

/-- The number of payload bytes (R67). -/
def Push.length (p : Push) : Nat := p.payload.length

/-- The unissued bytes of a push (R67). -/
def Push.unissued (p : Push) : Nat := p.length - p.issued

/-- The payload bytes held (R68). -/
def PushQueue.bytesHeld (q : PushQueue) : Nat := (q.pushes.map Push.length).sum

/-- The queue admits a push of this length (R68). -/
def PushQueue.admits (q : PushQueue) (length : Nat) : Bool :=
  q.pushes.length + 1 ≤ Config.pushPlaces && q.bytesHeld + length ≤ Config.pushBytes

/-- The argument of PUSH_CUT (R73, R141). -/
def Push.cutArg (p : Push) : Nat := (if p.broadcast then 256 else 0) + p.unissued

/-- The head leaves the Push Queue and the Order List (R72, R73). -/
def State.headLeaves (s : State) : State :=
  (s.onPq fun q => { pushes := q.pushes.tail }).onIa fun a => { a with orderList := a.orderList.erase .push }

/-- PQ cuts the head (R73): counted, offered, removed. -/
def State.cutHead (s : State) : State :=
  match s.pq.pushes with
  | [] => s
  | p :: _ => ((s.bump .pushBytesCut p.unissued).offer .pushCut p.cutArg).headLeaves

/-- The head's node slot is QUIET (R75). -/
def State.headQuiet (s : State) : Bool :=
  match s.pq.pushes with
  | [] => false
  | p :: _ => (look s.tu.nodes p.slot).state == .quiet

/-- The head's node slot is this one (R75). -/
def PushQueue.headIs (slot : SlotIx) (q : PushQueue) : Bool :=
  match q.pushes with
  | [] => false
  | p :: _ => p.slot == slot

/-- Cuts the head while its node slot is QUIET, at most `n` times. -/
def State.cutQuietHeads : Nat → State → State
  | 0, s => s
  | n + 1, s => if s.headQuiet then State.cutQuietHeads n s.cutHead else s

/-- PQ tests the head, and each push that becomes the head by a cut (R75). -/
def State.testHead (s : State) : State := s.cutQuietHeads s.pq.pushes.length

/-- Cuts the head `n` times. -/
def State.cutHeads : Nat → State → State
  | 0, s => s
  | n + 1, s => State.cutHeads n s.cutHead

/-- PQ cuts every push, head first (R76). -/
def State.cutAll (s : State) : State := s.cutHeads s.pq.pushes.length

/-- PQ takes the link's leaving UP: a started head is cut, and the new head tested (R74, R75). -/
def State.cutStartedHead (s : State) : State :=
  match s.pq.pushes with
  | [] => s
  | p :: _ => if 0 < p.issued then s.cutHead.testHead else s

/-- The unissued bytes of every push held (R78). -/
def PushQueue.unissuedBytes (q : PushQueue) : Nat := (q.pushes.map Push.unissued).sum

end Sys2Proof.Machine
end

