-- ==== Sys2Proof/Machine/Arbiter.lean ====
section
/-! DEFINITION. IA: the passing rules, eligibility, carving, the issue of a piece, and the arbitration of the trunk
transmitter (05_issue_order_and_trunk_transmission.md). -/

namespace Sys2Proof.Machine

/-! ### CU's counts, as IA reads them (R84, R97, R98) -/

/-- The BUSY count of a node slot (R97). -/
def CompletionUnit.busyCount (u : CompletionUnit) (slot : SlotIx) : Nat :=
  countIx 32 fun t => (look u.tags t).state == .busy && (look u.tags t).slot == slot

/-- The lowest-numbered FREE tag (R98). -/
def CompletionUnit.freeTag (u : CompletionUnit) : Option TagIx := firstIx 32 fun t => (look u.tags t).state == .free

/-! ### Members of the Order List as IA judges them (R80) -/

inductive WorkKind where
  | push | write | read
  deriving DecidableEq, Repr

/-- What IA reads of a member from its record (R80). -/
structure MemberView where
  member : Member
  kind : WorkKind
  window : WinIx
  relaxed : Bool
  slot : SlotIx
  deriving DecidableEq, Repr

def exchangeView (i : RecIx) (e : Exchange) : MemberView :=
  ⟨.exchange i, (match e.kind with | .read => .read | .write => .write), e.window, e.relaxed, e.slot⟩

def pushView (p : Push) : MemberView := ⟨.push, .push, p.window, false, p.slot⟩

/-- The members in order, each read from its record; the k-th push member is the k-th push of the queue. -/
def memberViews (records : Vector Exchange 8) : List Member → List Push → List MemberView
  | [], _ => []
  | .exchange i :: ms, ps => exchangeView i (look records i) :: memberViews records ms ps
  | .push :: ms, p :: ps => pushView p :: memberViews records ms ps
  | .push :: ms, [] => memberViews records ms []

/-- The matrix of R82, with its exception for RELAXED. -/
def mayPass (later earlier : MemberView) : Bool :=
  match later.kind, earlier.kind with
  | .push, .push => false
  | .push, .write => true
  | .push, .read => true
  | .write, .push => later.relaxed && later.window != earlier.window
  | .write, .write => false
  | .write, .read => true
  | .read, .push => later.relaxed && later.window != earlier.window
  | .read, .write => true
  | .read, .read => true

/-- IA judges a node slot LIVE: it is LIVE, or it has become QUIET and IA has not yet taken the report (R61, R84; log 12). -/
def State.judgedLive (s : State) (slot : SlotIx) : Bool :=
  match (look s.tu.nodes slot).state with
  | .live => true
  | .quiet => s.reports.quietAtIa.contains slot
  | .unused => false

/-- Conditions 2 to 5 of R84. -/
def State.resourcesFor (s : State) (v : MemberView) : Bool :=
  s.tp.link == .up && s.judgedLive v.slot &&
    match v.kind with
    | .push => creditAvailable s.tp.pushLimit s.tp.pushConsumed != 0
    | _ => s.cu.freeTag.isSome && s.cu.busyCount v.slot < (look s.tu.nodes v.slot).limit.toNat
        && creditAvailable s.tp.requestLimit s.tp.requestConsumed != 0

/-- The earliest eligible member behind the earlier ones (R84, R85). -/
def State.pickFrom (s : State) (earlier : List MemberView) : List MemberView → Option MemberView
  | [] => none
  | v :: vs =>
    if earlier.all (mayPass v) && s.resourcesFor v then some v else s.pickFrom (earlier ++ [v]) vs

/-- The members as IA reads them now. -/
def State.members (s : State) : List MemberView := memberViews s.xu.records s.ia.orderList s.pq.pushes

/-- The earliest eligible member of the Order List (R85). -/
def State.pick (s : State) : Option MemberView := s.pickFrom [] s.members

/-! ### Carving and issue -/

/-- The length of a piece (R86): up to the next multiple of P, or what is left. -/
def carve (pieceSize start left : Nat) : Nat := min (pieceSize - start % pieceSize) left

/-- The effective piece size of a node slot (R86). -/
def State.effectivePiece (s : State) (slot : SlotIx) : Nat :=
  min (look s.tu.nodes slot).pieceSize.toNat s.tp.pieceMax.toNat

/-- The rate class the pair runs at (R151). -/
def State.rateInForce (s : State) : Byte :=
  if s.tp.link = .settle ∨ s.tp.link = .up then s.tp.rateClass else 1

/-- The transmitter enters SENDING with one packet; the idle timer stops (R89, R93). -/
def State.send (p : Packet) (effect : PacketEffect) (s : State) : State :=
  s.onIa fun a => { a with transmitter := .sending p s.rateInForce effect, idleTimer := none }

/-- The piece of an exchange that IA would issue now: its start address and length (R86). -/
def State.exchangePiece (s : State) (i : RecIx) : FabricAddr × Nat :=
  let e := s.record i
  let start := e.addr + BitVec.ofNat 40 e.nextOffset
  (start, carve (s.effectivePiece e.slot) start.toNat (e.issueLength - e.nextOffset))

/-- The RQR or RQW packet of a piece (R87). -/
def State.exchangePacket (s : State) (i : RecIx) (tag : TagIx) : Packet :=
  let e := s.record i
  let piece := s.exchangePiece i
  let dest := (look s.tu.nodes e.slot).nodeId
  match e.kind with
  | .read => .rqr (BitVec.ofNat 5 tag.val) dest s.tp.nodeId piece.1 (BitVec.ofNat 16 piece.2)
  | .write => .rqw (BitVec.ofNat 5 tag.val) dest s.tp.nodeId piece.1 (slice e.payload e.nextOffset piece.2)

/-- The tag record of an issued piece (R98). -/
def State.tagFor (s : State) (i : RecIx) : Tag :=
  let e := s.record i
  let node := look s.tu.nodes e.slot
  ⟨.busy, some i, e.nextOffset, (s.exchangePiece i).2, e.kind, 0, e.slot, node.timeout, .completion (Config.ms node.timeout)⟩

/-- What XU records of an issue (R33). -/
def Exchange.issued (e : Exchange) (length : Nat) : Exchange :=
  { e with
    state := if e.state = .queued then .active else e.state
    nextOffset := e.nextOffset + length
    piecesIssued := e.piecesIssued + 1
    outstanding := e.outstanding + 1 }

/-- IA issues a piece of an exchange, as one event (R87). -/
def State.issueExchange (i : RecIx) (s : State) : State :=
  match s.cu.freeTag with
  | none => s
  | some t =>
    let e' := (s.record i).issued (s.exchangePiece i).2
    let s₁ := (((s.onCu fun u => { tags := put u.tags t (s.tagFor i) }).onTp fun p =>
      { p with requestConsumed := p.requestConsumed + 1 }).setRecord i e').send (s.exchangePacket i t) .nothing
    if e'.hasUnissued then s₁ else s₁.dropMember i

/-- IA issues a piece of the head push, as one event (R72, R88); a push that becomes the head is tested (R75). -/
def State.issuePush (s : State) : State :=
  match s.pq.pushes with
  | [] => s
  | p :: rest =>
    let start := p.addr + BitVec.ofNat 40 p.issued
    let length := carve (s.effectivePiece p.slot) start.toNat p.unissued
    let packet := Packet.psh (look s.tu.nodes p.slot).nodeId s.tp.nodeId start (slice p.payload p.issued length)
    let s₁ := (s.onTp fun t => { t with pushConsumed := t.pushConsumed + 1 }).send packet .nothing
    if p.length ≤ p.issued + length then s₁.headLeaves.testHead
    else s₁.onPq fun _ => { pushes := { p with issued := p.issued + length } :: rest }

/-- IA issues one piece of the earliest eligible member (R85). -/
def State.issueNext (s : State) : State :=
  match s.pick with
  | none => s
  | some v =>
    match v.member with
    | .exchange i => s.issueExchange i
    | .push => s.issuePush

/-! ### Claims (R90 to R92) -/

/-- Class 1 in NEGOTIATE: a pending CAPACK, which echoes the far CAP accepted most recently, then a pending CAP (R90, R91). -/
def State.sendNegotiation (s : State) : State :=
  match s.ia.capackClaim, s.tp.farCap with
  | true, some f => (s.onIa fun a => { a with capackClaim := false }).send (.capack f) (.capack true)
  | _, _ =>
    if s.ia.capClaim then (s.onIa fun a => { a with capClaim := false }).send (.cap gatewayCap) .nothing else s

/-- Classes 2 to 4 in UP: CREDIT, a management CPL, one piece (R90). -/
def State.sendWork (s : State) : State :=
  if s.ia.creditClaim then
    (s.onIa fun a => { a with creditClaim := false }).send (.credit s.tp.grantedRequest s.tp.grantedPush) .nothing
  else
    match s.ia.cplClaims with
    | c :: cs => (s.onIa fun a => { a with cplClaims := cs }).send c.packet (.managementCpl c.slot c.held c.segreset)
    | [] => s.issueNext

/-- IA judges the claims when the transmitter is FREE (R85, R90); a packet in SENDING is not broken off (R89). -/
def State.arbitrate (s : State) : State :=
  match s.ia.transmitter with
  | .sending _ _ _ => s
  | .free =>
    match s.tp.link with
    | .negotiate => s.sendNegotiation
    | .up => s.sendWork
    | .isolated => s
    | .awaitRef => s
    | .settle => s
    | .failed => s

/-- The idle timer starts, in SETTLE and UP (R93). -/
def State.startIdle (s : State) : State :=
  if s.tp.link = .settle ∨ s.tp.link = .up then s.onIa fun a => { a with idleTimer := some Config.idleTime } else s

/-- The idle timer expires (R93): a claim of a higher class would go first; else the KEEP goes out. It does not expire while
stopped, and it runs only while the transmitter is FREE in SETTLE or UP (log 3). -/
def State.idleExpires (s : State) : State :=
  if s.ia.idleTimer = none then s
  else
    let s₁ := (s.onIa fun a => { a with idleTimer := none }).arbitrate
    if s₁.ia.transmitter = .free ∧ (s₁.tp.link = .settle ∨ s₁.tp.link = .up) then s₁.send .keep .nothing else s₁

end Sys2Proof.Machine
end

