-- ==== Sys2Proof/Machine/Link.lean ====
section
/-! DEFINITION. TP's link state machine: negotiation, SETTLE, UP, leaving, FAILED, SEGRESET (09_the_trunk_link.md). -/

namespace Sys2Proof.Machine

/-! ### Negotiation (R150 to R154) -/

/-- A CAPACK in SENDING no longer sets the acknowledged flag (R151). -/
def PacketEffect.stale : PacketEffect → PacketEffect
  | .capack _ => .capack false
  | .nothing => .nothing
  | .managementCpl slot held segreset => .managementCpl slot held segreset

/-- The effect of the packet in SENDING, changed. -/
def TrunkTransmitter.mapEffect (f : PacketEffect → PacketEffect) : TrunkTransmitter → TrunkTransmitter
  | .free => .free
  | .sending packet rate effect => .sending packet rate (f effect)

/-- The start of an attempt (R151). -/
def State.startAttempt (n : Nat) (s : State) : State :=
  (s.onTp fun t =>
    { t with
      attempt := n
      farCap := none
      acknowledged := false
      farCapack := false
      attemptTimer := some Config.attemptInterval
      capInterval := some Config.capIntervalTime }).onIa fun a =>
    { a with capackClaim := false, capClaim := true, transmitter := a.transmitter.mapEffect PacketEffect.stale }

/-- Entry to NEGOTIATE: the negotiation record cleared, attempt 1 (R150, R151). -/
def State.enterNegotiate (s : State) : State := (s.onTp fun t => { t with link := .negotiate }).startAttempt 1

/-- Entry to AWAIT_REF; with REFOK high the link goes on to NEGOTIATE at once (R150). -/
def State.enterAwaitRef (s : State) : State :=
  let s₁ := s.onTp fun t => { t with link := .awaitRef, segmentHold := none }
  if s.refok then s₁.enterNegotiate else s₁

/-- Leaving NEGOTIATE: both its timers stop, pending CAP and CAPACK claims are withdrawn (R91, R153, R154, R159). -/
def State.leaveNegotiate (s : State) : State :=
  (s.onTp fun t => { t with attemptTimer := none, capInterval := none }).onIa fun a =>
    { a with capClaim := false, capackClaim := false }

/-- The link loss timer, started with the setting in force (R156). -/
def State.lossInterval (s : State) : Timer := some (Config.ms s.mu.settings.linkLoss)

/-- Entry to SETTLE with the accepted far CAP (R93, R153, R155, R160). -/
def State.enterSettle (f : CapFields) (s : State) : State :=
  let s₁ := s.leaveNegotiate.onTp fun t =>
    { t with
      link := .settle
      rateClass := if f.rateClass.toNat ≤ 4 then f.rateClass else 4
      pieceMax := if f.pieceMax.toNat ≤ 512 then f.pieceMax else 512
      nodeId := f.nodeId.setWidth 12
      requestLimit := f.requestLimit
      pushLimit := f.pushLimit
      requestConsumed := 0
      pushConsumed := 0
      grantedRequest := 2
      grantedPush := 0
      slots := Vector.replicate 2 none
      unserved := []
      settle := some Config.settleTime
      linkLoss := s.lossInterval }
  if s₁.ia.transmitter = .free then s₁.startIdle else s₁

/-- TP tests for completion whenever a flag becomes set (R153). -/
def State.testComplete (s : State) : State :=
  match s.tp.farCap with
  | some f => if s.tp.acknowledged ∧ s.tp.farCapack then s.enterSettle f else s
  | none => s

/-- Entry to FAILED (R159). -/
def State.enterFailed (s : State) : State :=
  ((s.leaveNegotiate.onTp fun t => { t with link := .failed }).offer .linkFailed 0).onReports fun r =>
    { r with failedAtXu := r.failedAtXu + 1, failedAtPq := r.failedAtPq + 1 }

/-- An attempt ends without completion (R154). -/
def State.endAttempt (s : State) : State :=
  if s.tp.attempt < 8 then s.startAttempt (s.tp.attempt + 1) else s.enterFailed

/-- TP judges a far CAP in NEGOTIATE (R152). One that is not acceptable fails the attempt, an assigned node ID of 4096 to 65535 as well,
which R152 does not name beside 0 and 4095 (log 31). -/
def State.judgeCap (f : CapFields) (s : State) : State :=
  if capAcceptable f then
    (s.onTp fun t =>
      { t with farCap := some f, acknowledged := t.acknowledged && t.farCap == some f }).onIa fun a =>
      { a with capackClaim := true }
  else s.endAttempt

/-- TP judges a CAPACK in NEGOTIATE (R153). -/
def State.judgeCapack (f : CapFields) (s : State) : State :=
  if f = gatewayCap then (s.onTp fun t => { t with farCapack := true }).testComplete else s

/-! ### Leaving SETTLE and UP (R155, R157, R158) -/

/-- Outgoing credits and granted limits are 0 (R155, R158, R165). -/
def TrunkPort.zeroCredits (t : TrunkPort) : TrunkPort :=
  { t with
    requestLimit := 0
    requestConsumed := 0
    pushLimit := 0
    pushConsumed := 0
    grantedRequest := 0
    grantedPush := 0 }

/-- Leaving SETTLE: its timers and IA's idle timer stop, the credits are 0 (R155). -/
def State.leaveSettle (s : State) : State :=
  (s.onTp fun t => { t.zeroCredits with settle := none, linkLoss := none }).onIa fun a => { a with idleTimer := none }

/-- A management CPL in SENDING no longer answers a held slot (R164). -/
def PacketEffect.released : PacketEffect → PacketEffect
  | .managementCpl slot _ segreset => .managementCpl slot false segreset
  | .nothing => .nothing
  | .capack current => .capack current

/-- TP's own part of leaving UP: credits, slots, loss timer (R158, R164). -/
def TrunkPort.leftUp (t : TrunkPort) : TrunkPort :=
  { t.zeroCredits with slots := Vector.replicate 2 none, unserved := [], linkLoss := none }

/-- The report of leaving UP, one for each block (R158). -/
def Reports.leftUp (reason : DownReason) (r : Reports) : Reports :=
  { r with
    leftAtXu := r.leftAtXu ++ [reason]
    leftAtCu := r.leftAtCu ++ [reason]
    leftAtPq := r.leftAtPq ++ [reason]
    leftAtRu := r.leftAtRu ++ [reason]
    leftAtIa := r.leftAtIa ++ [reason] }

/-- Leaving UP (R158): TP's own state, the reports, LINK_DOWN, and the mark on the ACTIVE exchanges (R123; log 30). The slots freed
here are no longer those that a claim or a CPL in SENDING answers (R164). -/
def State.leaveUp (reason : DownReason) (s : State) : State :=
  ((((s.onTp TrunkPort.leftUp).onIa fun a =>
    { a with
      cplClaims := a.cplClaims.map fun c => { c with held := false }
      transmitter := a.transmitter.mapEffect PacketEffect.released }).onXu ExchangeUnit.linkLeft).onReports
    (Reports.leftUp reason)).offer .linkDown reason.code

/-- What leaving the present link state brings, before the next state is entered. -/
def State.leaveLink (reason : DownReason) (s : State) : State :=
  match s.tp.link with
  | .up => s.leaveUp reason
  | .settle => s.leaveSettle
  | .negotiate => s.leaveNegotiate
  | .isolated => s
  | .awaitRef => s
  | .failed => s

/-- SEGRESET takes effect: to ISOLATED from any state, the segment hold timer started, the others stopped, credits 0, slots FREE
(R149, R165, R177). -/
def State.segmentReset (s : State) : State :=
  let s₁ := s.leaveLink .segreset
  s₁.onTp fun t =>
    { t.zeroCredits with
      link := .isolated
      slots := Vector.replicate 2 none
      unserved := []
      segmentHold := some (Config.ms s.mu.settings.segmentHold)
      attemptTimer := none
      capInterval := none
      settle := none
      linkLoss := none }

/-! ### Events of the link -/

/-- The segment hold timer expires in ISOLATED (R149). -/
def State.segmentHoldExpires (s : State) : State :=
  if s.tp.link = .isolated ∧ s.tp.segmentHold ≠ none then s.enterAwaitRef.arbitrate else s

/-- REFOK falls, by the link state (R150, R154, R155, R157). -/
def State.refokFalls (s : State) : State :=
  match s.tp.link with
  | .negotiate => (s.leaveLink .refokFell).enterAwaitRef
  | .settle => (s.leaveLink .refokFell).enterAwaitRef
  | .up => (s.leaveLink .refokFell).enterAwaitRef
  | .isolated => s
  | .awaitRef => s
  | .failed => s

/-- The attempt timer expires in NEGOTIATE (R154). -/
def State.attemptExpires (s : State) : State :=
  if s.tp.link = .negotiate ∧ s.tp.attemptTimer ≠ none then s.endAttempt.arbitrate else s

/-- The CAP interval timer expires in NEGOTIATE: a CAP claim, and the timer starts again (R91, R151). -/
def State.capIntervalExpires (s : State) : State :=
  if s.tp.link = .negotiate ∧ s.tp.capInterval ≠ none then
    ((s.onTp fun t => { t with capInterval := some Config.capIntervalTime }).onIa fun a =>
      { a with capClaim := true }).arbitrate
  else s

/-- The settle timer expires in SETTLE: UP, LINK_UP offered, IA judges the Order List (R155). -/
def State.settleExpires (s : State) : State :=
  if s.tp.link = .settle ∧ s.tp.settle ≠ none then
    ((s.onTp fun t => { t with link := .up, settle := none }).offer .linkUp 0).arbitrate
  else s

/-- The link loss timer expires in SETTLE or UP (R155 to R157). -/
def State.lossExpires (s : State) : State :=
  if (s.tp.link = .settle ∨ s.tp.link = .up) ∧ s.tp.linkLoss ≠ none then
    (s.leaveLink .loss).enterAwaitRef.arbitrate
  else s

end Sys2Proof.Machine
end

