-- ==== Sys2Proof/Machine/Completions.lean ====
section
/-! DEFINITION. CU: completions, the two timers of a tag, leaving UP and RESTART (06_pieces_tags_and_completions.md), and TU's
count of timeouts and successes (R61, R62). -/

namespace Sys2Proof.Machine

/-- The tag record at a number. -/
def State.tag (s : State) (t : TagIx) : Tag := look s.cu.tags t

def State.setTag (t : TagIx) (r : Tag) (s : State) : State := s.onCu fun u => { tags := put u.tags t r }

/-- CU hands XU the result of the owner's piece (R111). -/
def State.reportPiece (owner : Option RecIx) (r : PieceResult) (s : State) : State :=
  match owner with
  | some i => s.onReports fun q => { q with pieceResults := q.pieceResults ++ [(i, r)] }
  | none => s

/-- CU hands TU a success or a timeout of a node slot (R112). -/
def State.reportNode (slot : SlotIx) (r : NodeReport) (s : State) : State :=
  s.onReports fun q => { q with nodeReports := q.nodeReports ++ [(slot, r)] }

/-- A BUSY tag moves to COOLING: the cool-down runs with its timeout value, the other fields stay (R105). -/
def Tag.cooled (r : Tag) : Tag := { r with state := .cooling, timer := .coolDown (Config.ms r.timeout) }

/-- The bytes a READ piece is still owed; a WRITE piece is owed none (R101). -/
def Tag.expected (r : Tag) : Nat :=
  match r.kind with
  | .read => r.length - r.received
  | .write => 0

/-- Bytes placed at an offset of the read buffer (R102). -/
def placeAt (buffer : List Byte) (offset : Nat) (bytes : List Byte) : List Byte :=
  buffer.take offset ++ bytes ++ buffer.drop (offset + bytes.length)

/-- CU places the payload of a CPL of a READ piece in the owner's read buffer (R102). -/
def State.placePayload (t : TagIx) (payload : List Byte) (s : State) : State :=
  let r := s.tag t
  match r.owner, r.kind with
  | some i, .read =>
    s.setRecord i { s.record i with readBuffer := placeAt (s.record i).readBuffer (r.start + r.received) payload }
  | _, _ => s

/-- A partial CPL: the bytes received rise, the tag stays BUSY (R102). -/
def State.partialCompletion (t : TagIx) (payload : List Byte) (s : State) : State :=
  (s.placePayload t payload).setTag t { s.tag t with received := (s.tag t).received + payload.length }

/-- A final CPL: the tag FREE, success to XU and to TU (R103). -/
def State.finalCompletion (t : TagIx) (payload : List Byte) (s : State) : State :=
  let r := s.tag t
  (((s.placePayload t payload).setTag t Tag.free).reportPiece r.owner .success).reportNode r.slot .success

/-- A CPL with a status other than OK: the tag FREE, FAULT REMOTE to XU (R104). -/
def State.remoteFailure (t : TagIx) (status : Byte) (s : State) : State :=
  (s.setTag t Tag.free).reportPiece (s.tag t).owner (.failure .remote (detailOf 0 status.toNat))

/-- A CPL of the wrong shape: the tag COOLING, FAULT PROTOCOL to XU (R105). -/
def State.shapeFailure (t : TagIx) (s : State) : State :=
  (s.setTag t (s.tag t).cooled).reportPiece (s.tag t).owner (.failure .protocol (detailOf 0 (s.tag t).start))

/-- A CPL for a BUSY tag (R101). -/
def State.busyCompletion (t : TagIx) (status : Byte) (remaining : BitVec 16) (payload : List Byte) (s : State) : State :=
  let owed := (s.tag t).expected
  if status ≠ 0 then s.remoteFailure t status
  else if payload.length ≤ owed ∧ remaining.toNat = owed - payload.length then
    (if remaining = 0 then s.finalCompletion t payload else s.partialCompletion t payload)
  else s.shapeFailure t

/-- CU takes a CPL by the state of the tag it names (R100, R106, R107); IA judges the Order List when a tag ends (R97). -/
def State.takeCompletion (t : TagIx) (status : Byte) (remaining : BitVec 16) (payload : List Byte) (s : State) : State :=
  match (s.tag t).state with
  | .busy => (s.busyCompletion t status remaining payload).arbitrate
  | .cooling => s.bump .lateCpl 1
  | .free => (s.bump .strayCpl 1).offer .stray t.val

/-- The completion timer of a BUSY tag expires (R108). -/
def State.pieceTimesOut (t : TagIx) (s : State) : State :=
  let r := s.tag t
  (((s.setTag t r.cooled).bump .completionTimeouts 1).reportPiece r.owner (.failure .timeout (detailOf 0 r.start))).reportNode
    r.slot .timeout

/-- COMPLETION_TIMER_EXPIRY (R99, R108): only a running completion timer expires (log 3). -/
def State.completionExpires (t : TagIx) (s : State) : State :=
  match (s.tag t).state, (s.tag t).timer with
  | .busy, .completion _ => (s.pieceTimesOut t).arbitrate
  | _, _ => s

/-- COOL_DOWN_EXPIRY (R110): the tag FREE, its fields zero; IA judges the Order List. -/
def State.coolDownExpires (t : TagIx) (s : State) : State :=
  match (s.tag t).state, (s.tag t).timer with
  | .cooling, .coolDown _ => (s.setTag t Tag.free).arbitrate
  | _, _ => s

/-- The tags in BUSY, lowest first. -/
def CompletionUnit.busyTags (u : CompletionUnit) : List TagIx :=
  (List.finRange 32).filter fun t => (look u.tags t).state == .busy

/-- One BUSY tag at the link's leaving UP: COOLING, and FAULT CUT to XU (R113). -/
def State.cutTag (reason : DownReason) (t : TagIx) (s : State) : State :=
  (s.setTag t (s.tag t).cooled).reportPiece (s.tag t).owner (.failure .cut (detailOf 0 reason.code))

/-- CU takes the link's leaving UP (R113). -/
def State.cutTags (reason : DownReason) (s : State) : State := s.cu.busyTags.foldl (fun u t => u.cutTag reason t) s

/-- CU at RESTART: every BUSY tag COOLING with owner none (R114). -/
def CompletionUnit.restarted (u : CompletionUnit) : CompletionUnit where
  tags := mapIx (fun _ r => if r.state == .busy then { r.cooled with owner := none } else r) u.tags

/-! ### TU's quarantine count (R61, R62) -/

/-- The count after a timeout stops at 15 (R61). -/
def Node.timedOut (n : Node) : Node := { n with count := min 15 (n.count + 1) }

/-- A LIVE slot whose count is at or above its non-zero threshold (R61). -/
def Node.overThreshold (n : Node) : Bool := n.state == .live && n.threshold != 0 && n.threshold.toNat ≤ n.count

def State.setNode (i : SlotIx) (n : Node) (s : State) : State := s.onTu fun u => { u with nodes := put u.nodes i n }

/-- The slot becomes QUIET: reported to XU, PQ and IA, and NODE_QUIET offered (R61). -/
def State.quarantine (i : SlotIx) (s : State) : State :=
  ((s.setNode i { look s.tu.nodes i with state := .quiet }).onReports fun r =>
    { r with quietAtXu := r.quietAtXu ++ [i], quietAtPq := r.quietAtPq ++ [i], quietAtIa := r.quietAtIa ++ [i] }).offer
    .nodeQuiet (look s.tu.nodes i).nodeId.toNat

/-- TU takes a timeout for a node slot (R61); an UNUSED slot is not changed (R65). -/
def State.nodeTimesOut (i : SlotIx) (s : State) : State :=
  let n := look s.tu.nodes i
  if n.state = .unused then s
  else
    let s₁ := s.setNode i n.timedOut
    if n.timedOut.overThreshold then s₁.quarantine i else s₁

/-- TU takes a success for a node slot: its count is 0, its state stays (R62). -/
def State.nodeSucceeds (i : SlotIx) (s : State) : State := s.setNode i { look s.tu.nodes i with count := 0 }

end Sys2Proof.Machine
end

