-- ==== Sys2Proof/Machine/Translation.lean ====
section
/-! DEFINITION. TU: resolution of a unit and offset, and the loading of window and node images (03_windows_and_node_slots.md). -/

namespace Sys2Proof.Machine

/-! ### Resolution (R45 to R48) -/

/-- A valid window that covers a unit (R45). -/
def Window.covers (w : Window) (unit : Byte) : Bool := w.valid && w.firstUnit.toNat ≤ unit.toNat && unit.toNat ≤ w.lastUnit.toNat

/-- The window that covers a unit; at most one does (R45). -/
def TranslationUnit.windowFor (u : TranslationUnit) (unit : Byte) : Option WinIx :=
  firstIx 16 fun i => (look u.windows i).covers unit

/-- The fabric address of an offset in a unit (R45). -/
def Window.addressOf (w : Window) (unit : Byte) (offset : Nat) : FabricAddr :=
  BitVec.ofNat 40 (w.base.toNat + (unit.toNat - w.firstUnit.toNat) * 2 ^ w.stride.toNat + offset)

/-- The window's rights admit the kind (R44, R46). -/
def Window.admits (w : Window) : WorkKind → Bool
  | .read => w.rightR
  | .write => w.rightW
  | .push => w.rightP

/-- What TU returns (R47). -/
structure Resolution where
  window : WinIx
  slot : SlotIx
  addr : FabricAddr
  relaxed : Bool
  retain : Bool
  depth : Nat
  room : Nat
  deriving DecidableEq, Repr

/-- TU resolves a request, or answers with the first check that fails (R46). `room` is the span minus the offset (R120). -/
def State.resolve (s : State) (kind : WorkKind) (unit : Byte) (offset length : Nat) :
    Except (FaultCode × BitVec 16) Resolution :=
  match s.tu.windowFor unit with
  | none => .error (.noWindow, detailOf 0 unit.toNat)
  | some i =>
    let w := look s.tu.windows i
    if w.admits kind = false then .error (.access, detailOf i.val w.rights.toNat)
    else if w.span.toNat < offset + length then .error (.range, detailOf i.val 0)
    else if (look s.tu.nodes w.slot).state = .quiet then .error (.nodeQuiet, detailOf 0 w.slot.val)
    else if s.tp.link = .failed then .error (.link, linkDetail)
    else .ok ⟨i, w.slot, w.addressOf unit offset, w.relaxed, w.retain, w.depth.toNat, w.span.toNat - offset⟩

/-! ### Holders of a node slot (R53) -/

/-- A node slot is in use (R53). -/
def State.inUse (s : State) (n : SlotIx) : Bool :=
  s.tu.windows.toList.any (fun w => w.valid && w.slot == n)
    || s.xu.records.toList.any (fun e => e.inWork && e.slot == n)
    || s.pq.pushes.any (fun p => p.slot == n)
    || s.cu.tags.toList.any (fun t => t.state == .busy && t.slot == n)

/-! ### Window images (R49 to R51, R58) -/

/-- Two unit ranges share a unit (R50). -/
def Window.sharesUnit (a b : Window) : Bool :=
  a.firstUnit.toNat ≤ b.lastUnit.toNat && b.firstUnit.toNat ≤ a.lastUnit.toNat

/-- One past the end of the window (R51). -/
def Window.endAddr (w : Window) : Nat :=
  w.base.toNat + (w.lastUnit.toNat - w.firstUnit.toNat) * 2 ^ w.stride.toNat + w.span.toNat

/-- A field of a window is out of range (R51). -/
def Window.badValue (w : Window) : Bool :=
  w.stride.toNat < 8 || 31 < w.stride.toNat || w.span.toNat = 0 || 16777216 < w.span.toNat
    || (w.firstUnit.toNat < w.lastUnit.toNat && 2 ^ w.stride.toNat < w.span.toNat)
    || 2 ^ 40 < w.endAddr
    || (w.depth != 0 && !w.retain)
    || !(w.rightR || w.rightW || w.rightP)
    || 15 < w.depth.toNat

/-- Another valid window than slot `i` shares a unit (R50). -/
def TranslationUnit.overlapsOther (u : TranslationUnit) (i : WinIx) (w : Window) : Bool :=
  (firstIx 16 fun j => j != i && (look u.windows j).valid && (look u.windows j).sharesUnit w).isSome

/-- TU checks the image of a slot in the order of R50; an image with valid clear passes (R49). -/
def TranslationUnit.windowRefusal (u : TranslationUnit) (i : WinIx) (image : List Byte) : Option RefusalReason :=
  let w := windowOfImage image
  if (byteAt image 0).getLsbD 0 = false then none
  else if w.firstUnit = 0 then some .unitZero
  else if w.lastUnit.toNat < w.firstUnit.toNat then some .badRange
  else if slotOf (byteAt image 4) = none ∨ (look u.nodes w.slot).state = .unused then some .nodeSlot
  else if u.overlapsOther i w then some .overlap
  else if w.badValue ∨ windowImageUndefined image then some .badValue
  else none

/-- The window an accepted image leaves in its slot (R49). -/
def acceptedWindow (image : List Byte) : Window :=
  if (byteAt image 0).getLsbD 0 then windowOfImage image else Window.empty

/-- One accepted window image with its effects on retention (R49). -/
def State.loadWindow (i : WinIx) (image : List Byte) (s : State) : State :=
  (s.onTu fun u => { u with windows := put u.windows i (acceptedWindow image) }).windowAccepted i

/-- A refusal: the slot number in the high byte, the reason in the low byte (R58). -/
def refusedDetail (high : Nat) (reason : RefusalReason) : FaultCode × BitVec 16 := (.refused, detailOf high reason.code)

/-- TU takes the images in ascending slot order, each against the table as the ones before it leave it; the first refusal
refuses the whole write (R58). -/
def State.loadWindows : Nat → List (List Byte) → State → Except (FaultCode × BitVec 16) State
  | _, [], s => .ok s
  | n, image :: rest, s =>
    if h : n < 16 then
      match s.tu.windowRefusal ⟨n, h⟩ image with
      | some reason => .error (refusedDetail n reason)
      | none => State.loadWindows (n + 1) rest (s.loadWindow ⟨n, h⟩ image)
    else .ok s

/-! ### Node images (R55 to R58) -/

/-- Another slot that is not UNUSED holds the node ID (R56). -/
def TranslationUnit.otherHolds (u : TranslationUnit) (i : SlotIx) (id : NodeId) : Bool :=
  (firstIx 32 fun j => j != i && (look u.nodes j).state != .unused && (look u.nodes j).nodeId == id).isSome

/-- TU checks the node image of a slot (R55, R56). -/
def State.nodeRefusal (s : State) (i : SlotIx) (image : List Byte) : Option RefusalReason :=
  if byteAt image 0 = 0 then (if s.inUse i then some .inUse else none)
  else if nodeImageOk image = false then some .badValue
  else if s.inUse i ∧ (nodeOfImage image).nodeId ≠ (look s.tu.nodes i).nodeId then some .inUse
  else if s.tu.otherHolds i (nodeOfImage image).nodeId then some .dupNode
  else none

/-- The node record an accepted image leaves in its slot (R55, R56). -/
def acceptedNode (image : List Byte) : Node := if byteAt image 0 = 0 then Node.unused else nodeOfImage image

/-- One accepted node image with its effects on retention (R57). -/
def State.loadNode (i : SlotIx) (image : List Byte) (s : State) : State :=
  (s.setNode i (acceptedNode image)).nodeAccepted i

/-- As `State.loadWindows`, for the node region (R58). -/
def State.loadNodes : Nat → List (List Byte) → State → Except (FaultCode × BitVec 16) State
  | _, [], s => .ok s
  | n, image :: rest, s =>
    if h : n < 32 then
      match s.nodeRefusal ⟨n, h⟩ image with
      | some reason => .error (refusedDetail n reason)
      | none => State.loadNodes (n + 1) rest (s.loadNode ⟨n, h⟩ image)
    else .ok s

/-- CLEAR_QUIET at TU (R64, R179). -/
def State.clearQuietSlot (arg : Byte) (s : State) : Except (FaultCode × BitVec 16) State :=
  match slotOf arg with
  | none => .error (refusedDetail arg.toNat .badValue)
  | some i =>
    let n := look s.tu.nodes i
    if n.state = .unused then .error (refusedDetail arg.toNat .nodeSlot)
    else .ok (s.setNode i { n with state := .live, count := 0 })

end Sys2Proof.Machine
end

