-- ==== Sys2Proof/Machine/Space.lean ====
section
/-! DEFINITION. MU: the management space, what a read returns, what a write does, and RESTART
(10_management_space_and_commands.md, Tables 11-5 to 11-8). -/

namespace Sys2Proof.Machine

/-! ### The map (R166) -/

inductive Region where
  | identity | settings | status | counters | command | windows | nodes | exchanges | tags
  deriving DecidableEq, Repr

/-- First offset of a region (R166). -/
def Region.base : Region → Nat
  | .identity => 0x000000
  | .settings => 0x000100
  | .status => 0x000200
  | .counters => 0x000300
  | .command => 0x000400
  | .windows => 0x001000
  | .nodes => 0x002000
  | .exchanges => 0x003000
  | .tags => 0x004000

/-- Size of a region in bytes (R166). -/
def Region.size : Region → Nat
  | .identity => 14
  | .settings => 7
  | .status => 19
  | .counters => 26
  | .command => 2
  | .windows => 512
  | .nodes => 512
  | .exchanges => 128
  | .tags => 256

/-- A region that may be read: all but the command region (R166). -/
def Region.readable (r : Region) : Bool := r != .command

/-- A region that may be written (R166). -/
def Region.writable (r : Region) : Bool := r == .settings || r == .command || r == .windows || r == .nodes

def Region.all : List Region := [.identity, .settings, .status, .counters, .command, .windows, .nodes, .exchanges, .tags]

/-- The region that holds every offset of an access; none when an offset is unmapped (R166 check 1). -/
def regionOf (offset length : Nat) : Option Region :=
  Region.all.find? fun r => r.base ≤ offset && offset + length ≤ r.base + r.size

/-- Check 3 of R166: whole images from their first byte, both bytes of the command. -/
def Region.aligned (r : Region) (offset length : Nat) : Bool :=
  match r with
  | .windows => (offset - r.base) % 32 = 0 && length % 32 = 0
  | .nodes => (offset - r.base) % 16 = 0 && length % 16 = 0
  | .command => length = 2
  | _ => true

/-- Detail of FAULT ACCESS: the region's first offset divided by 256 (R166). -/
def Region.accessDetail (r : Region) : BitVec 16 := BitVec.ofNat 16 (r.base / 256)

/-- Checks 1 and 2 of R166 for a read. -/
def readRegion (offset length : Nat) : Except (FaultCode × BitVec 16) Region :=
  match regionOf offset length with
  | none => .error (.range, 0)
  | some r => if r.readable then .ok r else .error (.access, r.accessDetail)

/-- Checks 1 to 3 of R166 for a write. -/
def writeRegion (offset length : Nat) : Except (FaultCode × BitVec 16) Region :=
  match regionOf offset length with
  | none => .error (.range, 0)
  | some r =>
    if r.writable = false then .error (.access, r.accessDetail)
    else if r.aligned offset length = false then .error (refusedDetail 0 .align)
    else .ok r

/-! ### What a read returns -/

/-- The identity values (R170). -/
def identityBytes : List Byte := [0x0E, 0x7A, 0x04, 0x08, 0x01, 8, 16, 32, 32, 4, 32, 16, 0x04, 0x00]

/-- The settings (R171). -/
def Settings.bytes (t : Settings) : List Byte :=
  [t.hold, t.retention, t.segmentHold, t.linkLoss, t.station, t.permit, t.mask]

/-- How many records stand in a state (R43, R173). -/
def State.exchangeCount (s : State) (st : ExchangeState) : Nat := countIx 8 fun i => (s.record i).state == st

/-- The status region (R173). -/
def State.statusBytes (s : State) : List Byte :=
  [BitVec.ofNat 8 s.tp.link.code, s.lp.lrate.setWidth 8] ++ beBytes 2 s.tp.nodeId.toNat ++ [s.tp.rateClass]
    ++ beBytes 2 s.tp.pieceMax.toNat
    ++ [creditAvailable s.tp.requestLimit s.tp.requestConsumed, creditAvailable s.tp.pushLimit s.tp.pushConsumed]
    ++ [ExchangeState.free, .queued, .active, .ready, .answered].map (fun st => BitVec.ofNat 8 (s.exchangeCount st))
    ++ [BitVec.ofNat 8 s.pq.pushes.length] ++ beBytes 2 s.pq.bytesHeld
    ++ [BitVec.ofNat 8 s.nu.queue.length, bitAt s.nu.overrun 0]

/-- The counters, each high byte first (R174). -/
def State.counterBytes (s : State) : List Byte := s.mu.counters.toList.flatMap fun c => beBytes 2 c.toNat

/-- Result class, FAULT code and detail of the exchange view (Table 11-7). -/
def ExchangeResult.view : ExchangeResult → Nat × Byte × BitVec 16
  | .pending => (0, 0, 0)
  | .ok => (1, 0, 0)
  | .fault code detail => (2, code.code, detail)

/-- The 16 bytes of a record in the exchange view; a FREE record reads as zeros (R43, Table 11-7). -/
def Exchange.view (e : Exchange) : List Byte :=
  match e.state with
  | .free => List.replicate 16 0
  | _ =>
    [BitVec.ofNat 8 (e.state.code * 32 + e.slot.val),
     BitVec.ofNat 8 (e.kind.code * 16 + e.xno.toNat),
     BitVec.ofNat 8 e.window.val + bitAt e.relaxed 4 + bitAt e.retain.isSome 5 + bitAt (e.retain == some true) 6
       + bitAt e.abandoned 7]
    ++ beBytes 5 e.addr.toNat
    ++ [BitVec.ofNat 8 e.requestedLength, BitVec.ofNat 8 (e.issueLength - 1)]
    ++ beBytes 2 e.nextOffset
    ++ [BitVec.ofNat 8 (e.result.view.1 * 64 + e.piecesIssued * 8 + e.outstanding), e.result.view.2.1]
    ++ beBytes 2 e.result.view.2.2.toNat

/-- The 8 bytes of a tag in the tag view; a FREE tag reads as zeros (R116, Table 11-8). With no owner the owner record bits, which the
spec does not state, read as zero (log 29). -/
def Tag.view (t : Tag) : List Byte :=
  match t.state with
  | .free => List.replicate 8 0
  | _ =>
    [BitVec.ofNat 8 (t.state.code * 64 + t.kind.code * 16 + (match t.owner with | some i => 8 + i.val | none => 0)),
     BitVec.ofNat 8 t.slot.val, BitVec.ofNat 8 t.start, BitVec.ofNat 8 (t.length - 1)]
    ++ beBytes 2 t.received ++ [t.timeout, 0]

/-- The image of a node slot as it reads now (R60). -/
def State.nodeImage (s : State) (i : SlotIx) : List Byte := (look s.tu.nodes i).image (s.inUse i) (s.cu.busyCount i)

/-- All bytes of a region, from its first offset; the command region is not read (R166). -/
def State.regionBytes (s : State) : Region → List Byte
  | .identity => identityBytes
  | .settings => s.mu.settings.bytes
  | .status => s.statusBytes
  | .counters => s.counterBytes
  | .command => []
  | .windows => s.tu.windows.toList.flatMap Window.image
  | .nodes => (List.finRange 32).flatMap s.nodeImage
  | .exchanges => s.xu.records.toList.flatMap Exchange.view
  | .tags => s.cu.tags.toList.flatMap Tag.view

/-- A read: the bytes covered, or the failing check (R166, R167). -/
def State.readSpace (s : State) (offset length : Nat) : Except (FaultCode × BitVec 16) (List Byte) :=
  match readRegion offset length with
  | .error e => .error e
  | .ok r => .ok (slice (s.regionBytes r) (offset - r.base) length)

/-! ### Settings (R171) -/

/-- A byte is within the values of the settings field at a place (R171). -/
def settingOk (place : Nat) (b : Byte) : Bool :=
  match place with
  | 0 => 1 ≤ b.toNat
  | 1 => 1 ≤ b.toNat
  | 2 => 1 ≤ b.toNat
  | 3 => 1 ≤ b.toNat && b.toNat ≤ 15
  | 4 => 1 ≤ b.toNat && b.toNat ≤ 30
  | 5 => b.toNat ≤ 1
  | 6 => b.toNat ≤ 0x7F
  | _ => false

/-- The settings with the field at a place set. -/
def Settings.set (place : Nat) (b : Byte) (t : Settings) : Settings :=
  match place with
  | 0 => { t with hold := b }
  | 1 => { t with retention := b }
  | 2 => { t with segmentHold := b }
  | 3 => { t with linkLoss := b }
  | 4 => { t with station := b }
  | 5 => { t with permit := b }
  | 6 => { t with mask := b }
  | _ => t

/-- The first field refused, by its place (R171). -/
def firstBadSetting : Nat → List Byte → Option Nat
  | _, [] => none
  | place, b :: bs => if settingOk place b then firstBadSetting (place + 1) bs else some place

/-- Every field covered takes its byte (R171). -/
def Settings.setRun : Nat → List Byte → Settings → Settings
  | _, [], t => t
  | place, b :: bs, t => Settings.setRun (place + 1) bs (t.set place b)

/-- A write that starts at a settings place covers the station field. -/
def coversStation (place length : Nat) : Bool := place ≤ 4 && 4 < place + length

/-! ### RESTART (R176) -/

/-- A RESTART takes effect, block by block (R17, R42, R78, R95, R114, R130, R143, R176). Piece results that XU has not yet taken
go with their exchanges (log 5); the blocks take it in one step (log 26). -/
def State.restarted (s : State) : State :=
  let s₁ := s.bump .pushBytesCut s.pq.unissuedBytes
  let s₂ := s₁.onLp fun l => { l with lastReply := none }
  let s₃ := s₂.onXu fun _ => { records := Vector.replicate 8 Exchange.free, answerOrder := [] }
  let s₄ := s₃.onPq fun _ => { pushes := [] }
  let s₅ := s₄.onIa fun a => { a with orderList := [] }
  let s₆ := (s₅.onCu CompletionUnit.restarted).buffersInvalidated
  (s₆.onNu NoticeUnit.emptied).onReports fun r => { r with pieceResults := [] }

/-! ### Writes -/

/-- What a write leaves to be done by the port it came from: nothing, the station change (R7), RESTART (R176), SEGRESET (R177). -/
inductive Deferred where
  | nothing | station | restart | segreset
  deriving DecidableEq, Repr

/-- A command of the command region (R175). -/
def State.runCommand (code arg : Byte) (s : State) : Except (FaultCode × BitVec 16) (State × Deferred) :=
  match code.toNat with
  | 1 => .ok (s, .restart)
  | 2 => .ok (s, .segreset)
  | 3 => .ok (s.onMu fun m => { m with counters := Vector.replicate 13 0 }, .nothing)
  | 4 =>
    match s.clearQuietSlot arg with
    | .ok s₁ => .ok (s₁.arbitrate, .nothing)
    | .error e => .error e
  | 5 => .ok (s.flushed, .nothing)
  | 6 => .ok (s.onNu NoticeUnit.emptied, .nothing)
  | _ => .error (refusedDetail code.toNat .badValue)

/-- A write to the settings region (R171). -/
def State.writeSettings (place : Nat) (data : List Byte) (s : State) : Except (FaultCode × BitVec 16) (State × Deferred) :=
  match firstBadSetting place data with
  | some bad => .error (refusedDetail bad .badValue)
  | none =>
    .ok (s.onMu fun m => { m with settings := m.settings.setRun place data },
      if coversStation place data.length then .station else .nothing)

/-- A write to the space: judged by R166, then applied whole or refused; IA judges again after a node image write (R85). -/
def State.writeSpace (offset : Nat) (data : List Byte) (s : State) : Except (FaultCode × BitVec 16) (State × Deferred) :=
  match writeRegion offset data.length with
  | .error e => .error e
  | .ok .settings => s.writeSettings (offset - Region.settings.base) data
  | .ok .command => s.runCommand (byteAt data 0) (byteAt data 1)
  | .ok .windows =>
    match s.loadWindows ((offset - Region.windows.base) / 32) (partsOf 32 (data.length / 32) data) with
    | .ok s₁ => .ok (s₁, .nothing)
    | .error e => .error e
  | .ok .nodes =>
    match s.loadNodes ((offset - Region.nodes.base) / 16) (partsOf 16 (data.length / 16) data) with
    | .ok s₁ => .ok (s₁.arbitrate, .nothing)
    | .error e => .error e
  | .ok .identity => .error (.access, Region.identity.accessDetail)
  | .ok .status => .error (.access, Region.status.accessDetail)
  | .ok .counters => .error (.access, Region.counters.accessDetail)
  | .ok .exchanges => .error (.access, Region.exchanges.accessDetail)
  | .ok .tags => .error (.access, Region.tags.accessDetail)

/-! ### The trunk port of the space (R168) -/

/-- CPL status of a refused access (R168). -/
def refusalStatus : FaultCode → Byte
  | .range => 3
  | _ => 2

/-- The CPL that answers a request: status, remaining 0, payload (R168). -/
def MgmtRequest.answer (r : MgmtRequest) (status : Byte) (payload : List Byte) : Packet :=
  .cpl r.source r.tag status 0 payload

/-- The CPL of a refusal: the code and detail the line would receive (R168). -/
def MgmtRequest.refusal (r : MgmtRequest) (e : FaultCode × BitVec 16) : Packet :=
  r.answer (refusalStatus e.1) (faultPayload e.1 e.2)

/-- MU raises a class 3 claim (R92, R168). -/
def State.claimCpl (p : Packet) (slot : MgmtIx) (segreset : Bool) (s : State) : State :=
  s.onIa fun a => { a with cplClaims := a.cplClaims ++ [⟨p, slot, true, segreset⟩] }

/-- What a trunk write leaves to be done once its claim is raised (R7, R176, R177). A station write puts the setting in force at once,
also where it repeats the value that the setting already holds (log 28). -/
def State.afterTrunkWrite (d : Deferred) (s : State) : State :=
  match d with
  | .nothing => s
  | .station => s.onLp fun l => { l with station := s.mu.settings.station }
  | .restart => s.restarted
  | .segreset => s

/-- MU serves one held request: the permit, the address, the region checks (R168). -/
def State.serve (slot : MgmtIx) (r : MgmtRequest) (s : State) : State :=
  let offset := r.addr.toNat % 2 ^ 24
  if s.mu.settings.permit = 0 then s.claimCpl (r.refusal (refusedDetail 0 .permit)) slot false
  else if 2 ^ 24 ≤ r.addr.toNat then s.claimCpl (r.refusal (.range, 0)) slot false
  else
    match r.body with
    | .rqr count =>
      match s.readSpace offset count.toNat with
      | .ok bytes => s.claimCpl (r.answer 0 bytes) slot false
      | .error e => s.claimCpl (r.refusal e) slot false
    | .rqw payload =>
      match s.writeSpace offset payload with
      | .ok (s₁, d) => (s₁.claimCpl (r.answer 0 []) slot (d == .segreset)).afterTrunkWrite d
      | .error e => s.claimCpl (r.refusal e) slot false

/-- MU takes the oldest held request it has not yet taken, and IA judges the claims (R90, R168). -/
def State.serveNext (s : State) : State :=
  match s.tp.unserved with
  | [] => s
  | slot :: rest =>
    let s₁ := s.onTp fun t => { t with unserved := rest }
    match look s.tp.slots slot with
    | none => s₁
    | some r => (s₁.serve slot r).arbitrate

end Sys2Proof.Machine
end

