-- ==== Sys2Proof/Machine/Line.lean ====
section
/-! DEFINITION. LP: the receive assembler, the station rules, the replies, the transmitter, and the meanings of the line
characters (01_the_line_port.md). -/

namespace Sys2Proof.Machine

/-! ### The receive assembler (R1, R3 to R5) -/

/-- The frame being gathered is abandoned or discarded, and counted once (R5). -/
def State.frameLost (s : State) : State := (s.onLp fun l => { l with assembler := .hunt }).bump .lineCrc 1

/-- The receiver is off while the transmitter is in SEND (R11). -/
def LinePort.hears (l : LinePort) : Bool :=
  match l.transmitter with
  | .send _ _ => false
  | .wait _ => true
  | .idle => true

/-- The station in force selects addressed frames: 1..30 (R6). -/
def LinePort.answers (l : LinePort) : Bool := 1 ≤ l.station.toNat && l.station.toNat ≤ 30

/-- The CRC of the bytes after the lead, against the last two of them (R5). -/
def frameGood (bytes : List Byte) : Bool :=
  bytes.drop (bytes.length - 2) == beBytes 2 (crc16 (bytes.take (bytes.length - 2))).toNat

/-- The request that a good frame's bytes after the lead carry (R8, Table 11-1). -/
def frameRequest (bytes : List Byte) (kind : RequestKind) : LineRequest where
  broadcast := byteAt bytes 0 == 31
  kind := kind
  xno := (byteAt bytes 1).setWidth 4
  payload := slice bytes 3 (byteAt bytes 2).toNat

/-- The station and kind rules on a good frame (R6, R8): an accepted request waits for its handler, and the transmitter enters
WAIT for an addressed one (R11). An addressed frame ends with the transmitter in IDLE (log 7). -/
def LinePort.accept (bytes : List Byte) (l : LinePort) : LinePort :=
  match requestKind ((byteAt bytes 1 >>> 4).setWidth 4) with
  | none => l
  | some kind =>
    if byteAt bytes 0 = 31 then
      if kind = .push then { l with accepted := l.accepted ++ [frameRequest bytes kind] } else l
    else if byteAt bytes 0 = l.station ∧ l.answers ∧ l.transmitter = .idle then
      { l with accepted := l.accepted ++ [frameRequest bytes kind], transmitter := .wait none }
    else l

/-- A frame ends with its second CRC byte (R3, R5). -/
def State.frameEnds (bytes : List Byte) (s : State) : State :=
  if frameGood bytes then s.onLp fun l => { l.accept bytes with assembler := .hunt } else s.frameLost

/-- A byte joins the frame being gathered (R3). -/
def State.gather (bytes : List Byte) (s : State) : State :=
  if bytes.length = 3 ∧ Config.maxLinePayload < (byteAt bytes 2).toNat then s.frameLost
  else if 3 ≤ bytes.length ∧ bytes.length = (byteAt bytes 2).toNat + 5 then s.frameEnds bytes
  else s.onLp fun l => { l with assembler := .inFrame bytes }

/-- A good character is heard (R3, R11). -/
def State.hear (b : Byte) (s : State) : State :=
  if s.lp.hears then
    match s.lp.assembler with
    | .hunt => if b = 0xA5 then s.onLp fun l => { l with assembler := .inFrame [] } else s
    | .inFrame bytes => s.gather (bytes ++ [b])
  else s

/-- A framing error or a silence inside a frame abandons it; in HUNT it has no effect (R1, R4). -/
def State.breakFrame (s : State) : State :=
  if s.lp.hears then
    match s.lp.assembler with
    | .hunt => s
    | .inFrame _ => s.frameLost
  else s

/-- The assembler takes its next good character as the length byte. -/
def LinePort.expectsLength (l : LinePort) : Bool :=
  match l.assembler with
  | .inFrame bytes => bytes.length == 2
  | .hunt => false

/-! ### Replies (R10, R11, R13) -/

/-- A handler's answer to an addressed request: handed to the transmitter, and stored or not as R13 says. -/
def State.answer (r : LineRequest) (kind : ReplyKind) (payload : List Byte) (stored : Bool) (effect : ReplyEffect)
    (s : State) : State :=
  s.onLp fun l =>
    { l with
      transmitter := .wait (some ⟨⟨kind, r.xno, payload⟩, effect⟩)
      lastReply := if stored then some (r.signature, ⟨kind, r.xno, payload⟩) else l.lastReply }

/-- An immediate FAULT, stored (R13). -/
def State.answerFault (r : LineRequest) (e : FaultCode × BitVec 16) (s : State) : State :=
  s.answer r .fault (faultPayload e.1 e.2) true .nothing

/-- A BUSY reply, counted and not stored (R10, R13; log 8). -/
def State.answerBusy (r : LineRequest) (code : Byte) (s : State) : State :=
  (s.answer r .busy [code] false .nothing).bump .busySent 1

/-- The reply the record holds for this signature (R14). -/
def LinePort.replay (l : LinePort) (r : LineRequest) : Option LineReply :=
  match l.lastReply with
  | some (signature, reply) => if signature = r.signature then some reply else none
  | none => none

/-- The turnaround ends (R11): a frame begun in WAIT is abandoned and counted, and the reply goes out under the station in
force. It ends with a reply decided (R10; log 3). -/
def State.turnaroundEnds (s : State) : State :=
  match s.lp.transmitter with
  | .wait (some h) =>
    s.breakFrame.onLp fun l =>
      { l with transmitter := .send (frameOf l.station h.reply.kind.code h.reply.xno h.reply.payload) h.effect }
  | .wait none => s
  | .idle => s
  | .send _ _ => s

/-- What the end of a reply brings (R7, R17). -/
def State.replyEffect (effect : ReplyEffect) (s : State) : State :=
  match effect with
  | .nothing => s
  | .station => s.onLp fun l => { l with station := s.mu.settings.station }
  | .restart => s.restarted

/-- The stop bit of the last reply character ends: IDLE, the receiver on (R11). -/
def State.replyEnds (s : State) : State :=
  match s.lp.transmitter with
  | .send _ effect => (s.onLp fun l => { l with transmitter := .idle }).replyEffect effect
  | .wait _ => s
  | .idle => s

/-! ### Meanings -/

/-- GOOD_CHARACTER (R3). -/
def execGoodCharacter (char : Byte) (s : State) : Host.Outcome State Fault Refusal := .next (s.whenRunning (·.hear char))

/-- FRAMING_ERROR (R1): `LineReceiver.commands` gives one for a line held low, until it returns to the stop level. -/
def execFramingError (s : State) : Host.Outcome State Fault Refusal := .next (s.whenRunning (·.breakFrame))

/-- LINE_SILENCE (R4): a silence of more than 2 character times. -/
def execLineSilence (s : State) : Host.Outcome State Fault Refusal := .next (s.whenRunning State.breakFrame)

/-- LENGTH_ABANDON (R3): only a length byte above 244 is this event (log 3). -/
def execLengthAbandon (length : Byte) (s : State) : Host.Outcome State Fault Refusal :=
  .next (s.whenRunning fun t =>
    if t.lp.expectsLength ∧ Config.maxLinePayload < length.toNat then t.hear length else t)

/-- LINE_FRAME (R5): the characters with which a frame ends, heard in order. -/
def execLineFrame (chars : List Byte) (s : State) : Host.Outcome State Fault Refusal :=
  .next (s.whenRunning fun t => chars.foldl (fun u b => u.hear b) t)

/-- TURNAROUND (R11). -/
def execTurnaround (s : State) : Host.Outcome State Fault Refusal := .next (s.whenRunning State.turnaroundEnds)

/-- REPLY_END (R11). -/
def execReplyEnd (s : State) : Host.Outcome State Fault Refusal := .next (s.whenRunning State.replyEnds)

end Sys2Proof.Machine
end

