-- ==== Sys2Proof/Machine/Requests.lean ====
section
/-! DEFINITION. The handling of accepted requests: the Last Reply Record, the form check, routing, XU's acceptance chain, PQ's
acceptance, MU's line port and NU's POLL; the meanings of READ, WRITE, PUSH and POLL (01, 02, 04, 08, 10). -/

namespace Sys2Proof.Machine

/-! ### XU's acceptance chain (R20 to R27) -/

/-- The live exchange that holds an xno (R20). -/
def ExchangeUnit.liveHolder (u : ExchangeUnit) (xno : Xno) : Option RecIx :=
  firstIx 8 fun i => (look u.records i).live && (look u.records i).xno == xno

/-- The ANSWERED exchange that holds an xno (R21). -/
def ExchangeUnit.answeredHolder (u : ExchangeUnit) (xno : Xno) : Option RecIx :=
  firstIx 8 fun i => (look u.records i).state == .answered && (look u.records i).xno == xno

/-- The record a new exchange takes: the lowest FREE one, else the oldest ANSWERED one (R24). -/
def ExchangeUnit.allocation (u : ExchangeUnit) : Option RecIx :=
  match firstIx 8 fun i => (look u.records i).state == .free with
  | some i => some i
  | none => u.answerOrder.head?

/-- The result of an exchange, as a reply that is not stored (R13, R26). -/
def State.answerResult (r : LineRequest) (i : RecIx) (s : State) : State :=
  s.answer r (s.record i).resultReply.1 (s.record i).resultReply.2 false .nothing

/-- A request whose xno a live exchange holds (R20). -/
def State.meetLive (r : LineRequest) (i : RecIx) (s : State) : State :=
  let e := s.record i
  if e.signature = r.signature then
    match e.state with
    | .queued => s.answer r .held [0] false .nothing
    | .active => s.answer r .held [1] false .nothing
    | .ready => (s.deliver i).answerResult r i
    | .free => s
    | .answered => s
  else s.answerFault r (.xnoClash, detailOf e.state.code e.kind.code)

/-- The bytes to be carried on the trunk (R18, R120). -/
def fetchLength (kind : ExchangeKind) (res : Resolution) (length : Nat) : Nat :=
  if kind = .read ∧ res.retain then min (min (length + 16 * res.depth) 256) res.room else length

/-- The record of a new exchange (R18, R25); the bytes of the read buffer are not visible before the fabric returns them
(log 11). -/
def newExchange (r : LineRequest) (kind : ExchangeKind) (res : Resolution) (length : Nat) : Exchange where
  state := .queued
  xno := r.xno
  kind := kind
  signature := r.signature
  window := res.window
  relaxed := res.relaxed
  slot := res.slot
  addr := res.addr
  requestedLength := length
  issueLength := fetchLength kind res length
  payload := if kind = .write then r.data else []
  readBuffer := if kind = .read then List.replicate (fetchLength kind res length) 0 else []
  retain := if kind = .read ∧ res.retain then some true else none
  nextOffset := 0
  piecesIssued := 0
  outstanding := 0
  abandoned := false
  result := .pending
  holdTimer := none
  leftUp := false

/-- The new exchange in its record: RU told of a WRITE, IA handed the member, HELD 0, and IA judges (R25, R85). -/
def State.acceptExchange (r : LineRequest) (kind : ExchangeKind) (res : Resolution) (length : Nat) (i : RecIx)
    (s : State) : State :=
  let s₁ := (s.freeRecord i).setRecord i (newExchange r kind res length)
  let s₂ := if kind = .write then s₁.writeAccepted res.slot res.addr length else s₁
  ((s₂.onIa fun a => { a with orderList := a.orderList ++ [.exchange i] }).answer r .held [0] false .nothing).arbitrate

/-- Allocation, or BUSY 1 (R24). -/
def State.allocate (r : LineRequest) (kind : ExchangeKind) (res : Resolution) (length : Nat) (s : State) : State :=
  match s.xu.allocation with
  | some i => s.acceptExchange r kind res length i
  | none => s.answerBusy r 1

/-- The buffer that answers a new READ (R23, R121). -/
def State.retentionHit (kind : ExchangeKind) (res : Resolution) (length : Nat) (s : State) : Option BufIx :=
  if kind = .read ∧ res.retain then s.ru.hit res.window res.addr length else none

/-- A retention hit: DATA, stored, and the buffer touched (R121). -/
def State.answerHit (r : LineRequest) (res : Resolution) (length : Nat) (i : BufIx) (s : State) : State :=
  (s.onRu (·.touch i (Config.ms s.mu.settings.retention))).answer r .data
    ((look s.ru.buffers i).bytesAt res.addr length) true .nothing

def ExchangeKind.work : ExchangeKind → WorkKind
  | .read => .read
  | .write => .write

/-- The number of bytes a request asks to read or write. -/
def LineRequest.length (r : LineRequest) (kind : ExchangeKind) : Nat :=
  match kind with
  | .read => r.readLength
  | .write => r.data.length

/-- Steps 3 to 5 of the acceptance chain (R22 to R25). -/
def State.newRequest (r : LineRequest) (kind : ExchangeKind) (s : State) : State :=
  match s.resolve kind.work r.unit r.offset (r.length kind) with
  | .error e => s.answerFault r e
  | .ok res =>
    match s.retentionHit kind res (r.length kind) with
    | some b => s.answerHit r res (r.length kind) b
    | none => s.allocate r kind res (r.length kind)

/-- The acceptance chain (R20 to R25, R27). -/
def State.exchangeRequest (r : LineRequest) (kind : ExchangeKind) (s : State) : State :=
  match s.xu.liveHolder r.xno with
  | some i => s.meetLive r i
  | none =>
    match s.xu.answeredHolder r.xno with
    | some i =>
      if (s.record i).signature = r.signature then (s.replayAnswered i).answerResult r i
      else (s.freeRecord i).newRequest r kind
    | none => s.newRequest r kind

/-! ### MU's line port (R167) -/

/-- What the end of a DONE from MU brings (R7, R176). -/
def Deferred.atReplyEnd : Deferred → ReplyEffect
  | .nothing => .nothing
  | .station => .station
  | .restart => .restart
  | .segreset => .nothing

/-- A READ of unit 0 (R167). -/
def State.managementRead (r : LineRequest) (s : State) : State :=
  match s.readSpace r.offset r.readLength with
  | .ok bytes => s.answer r .data bytes true .nothing
  | .error e => s.answerFault r e

/-- A WRITE to unit 0 (R167); SEGRESET from the line takes effect when MU applies it (R177). -/
def State.managementWrite (r : LineRequest) (s : State) : State :=
  match s.writeSpace r.offset r.data with
  | .ok (s₁, d) => (if d = .segreset then s₁.segmentReset else s₁).answer r .done [] true d.atReplyEnd
  | .error e => s.answerFault r e

/-! ### PQ (R69 to R71) -/

/-- Steps 1 to 4 of R70, and IA judges (R85); a push that becomes the head is tested (R75). -/
def State.acceptPush (r : LineRequest) (res : Resolution) (s : State) : State :=
  let s₁ := s.onPq fun q => { pushes := q.pushes ++ [⟨res.window, res.slot, res.addr, r.data, 0, r.broadcast⟩] }
  let s₂ := (s₁.writeAccepted res.slot res.addr r.data.length).onIa fun a => { a with orderList := a.orderList ++ [.push] }
  (if s.pq.pushes = [] then s₂.testHead else s₂).arbitrate

/-- An addressed push (R69, R70). -/
def State.pushRequest (r : LineRequest) (s : State) : State :=
  match s.resolve .push r.unit r.offset r.data.length with
  | .error e => s.answerFault r e
  | .ok res =>
    if s.pq.admits r.data.length then (s.answer r .done [] true .nothing).acceptPush r res else s.answerBusy r 2

/-- A broadcast push (R71). -/
def State.pushBroadcast (r : LineRequest) (s : State) : State :=
  match s.resolve .push r.unit r.offset r.data.length with
  | .error _ => s.bump .broadcastDropped 1
  | .ok res => if s.pq.admits r.data.length then s.acceptPush r res else s.bump .broadcastDropped 1

/-! ### NU (R138, R139) -/

/-- A well-formed POLL, as one event (R138, R139). -/
def State.pollRequest (r : LineRequest) (s : State) : State :=
  let u := s.nu.acknowledge r.ackValid r.ackSerial
  (s.onNu fun _ => u.markSent).answer r u.pollReply.1 u.pollReply.2 false .nothing

/-! ### LP's part (R9, R14 to R16) -/

/-- Routing of a well-formed addressed request (R15). -/
def State.route (r : LineRequest) (s : State) : State :=
  match r.kind with
  | .read => if r.unit = 0 then s.managementRead r else s.exchangeRequest r .read
  | .write => if r.unit = 0 then s.managementWrite r else s.exchangeRequest r .write
  | .push => if r.unit = 0 then s.answerFault r (.access, 0) else s.pushRequest r
  | .poll => s.pollRequest r

/-- FAULT MALFORMED, counted when sent fresh; the one to a POLL is not stored (R9, R13; log 8). -/
def State.answerMalformed (r : LineRequest) (s : State) : State :=
  (s.answer r .fault (faultPayload .malformed (detailOf 0 r.payload.length)) (r.kind != .poll) .nothing).bump .lineMalformed 1

/-- The record's reply to this request; a POLL does not consult the record (R13, R14). -/
def State.replayFor (s : State) (r : LineRequest) : Option LineReply := if r.kind = .poll then none else s.lp.replay r

/-- An addressed request (R9, R14, R15). -/
def State.addressedRequest (r : LineRequest) (s : State) : State :=
  match s.replayFor r with
  | some reply => s.onLp fun l => { l with transmitter := .wait (some ⟨reply, .nothing⟩) }
  | none => if r.wellFormed then s.route r else s.answerMalformed r

/-- A broadcast PUSH (R16). -/
def State.broadcastRequest (r : LineRequest) (s : State) : State :=
  if r.wellFormed = false then s.bump .lineMalformed 1
  else if r.unit = 0 then s
  else s.pushBroadcast r

/-- The oldest accepted request goes to its handler; with none waiting and the transmitter in IDLE, the command stands for the
arrival of the whole request (log 6). -/
def LinePort.take (r : LineRequest) (l : LinePort) : Option LinePort :=
  match l.accepted with
  | h :: rest => if h = r then some { l with accepted := rest } else none
  | [] =>
    if l.transmitter ≠ .idle then none
    else if r.broadcast then some l
    else if l.answers then some { l with transmitter := .wait none }
    else none

/-- A request is handled, whole. -/
def State.handleRequest (r : LineRequest) (s : State) : State :=
  match s.lp.take r with
  | none => s
  | some l =>
    let s₁ := s.onLp fun _ => l
    if r.broadcast then s₁.broadcastRequest r else s₁.addressedRequest r

/-! ### Meanings -/

/-- READ (R20). -/
def execRead (xno : Xno) (payload : List Byte) (s : State) : Host.Outcome State Fault Refusal :=
  .next (s.whenRunning (·.handleRequest ⟨false, .read, xno, payload⟩))

/-- WRITE (R25). -/
def execWrite (xno : Xno) (payload : List Byte) (s : State) : Host.Outcome State Fault Refusal :=
  .next (s.whenRunning (·.handleRequest ⟨false, .write, xno, payload⟩))

/-- PUSH (R69), addressed or broadcast. -/
def execPush (broadcast : Bool) (xno : Xno) (payload : List Byte) (s : State) : Host.Outcome State Fault Refusal :=
  .next (s.whenRunning (·.handleRequest ⟨broadcast, .push, xno, payload⟩))

/-- POLL (R138). -/
def execPoll (xno : Xno) (payload : List Byte) (s : State) : Host.Outcome State Fault Refusal :=
  .next (s.whenRunning (·.handleRequest ⟨false, .poll, xno, payload⟩))

end Sys2Proof.Machine
end

