-- ==== Sys2Proof/Machine/Management.lean ====
section
/-! DEFINITION. The meanings of the management writes and commands, from the line and from the trunk, and of
MANAGEMENT_REQUEST_SERVE (03, 10). -/

namespace Sys2Proof.Machine

/-- MU's next request is this write of these bytes at this offset (R163, R168). -/
def State.nextServes (offset : Nat) (data : List Byte) (s : State) : Bool :=
  match s.tp.unserved with
  | [] => false
  | slot :: _ =>
    match look s.tp.slots slot with
    | some ⟨_, _, addr, .rqw payload⟩ => addr.toNat % 2 ^ 24 == offset && payload == data
    | _ => false

/-- A management write, by its port (log 20): an addressed WRITE to unit 0 (R167), or the held RQW that MU takes next (R168). -/
def State.writeFrom (origin : WriteOrigin) (offset : BitVec 24) (data : List Byte) (s : State) : State :=
  match origin with
  | .line xno => s.handleRequest ⟨false, .write, xno, unitZeroWrite offset data⟩
  | .trunk => if s.nextServes offset.toNat data then s.serveNext else s

/-- The offset of the station setting (R171). -/
def stationOffset : BitVec 24 := 0x000104#24

/-- The offset of the command region (R175). -/
def commandOffset : BitVec 24 := 0x000400#24

/-- STATION_WRITE (R7). -/
def execStationWrite (origin : WriteOrigin) (value : Byte) (s : State) : Host.Outcome State Fault Refusal :=
  .next (s.whenRunning (·.writeFrom origin stationOffset [value]))

/-- SETTINGS_WRITE (R171). -/
def execSettingsWrite (origin : WriteOrigin) (offset : BitVec 24) (data : List Byte) (s : State) :
    Host.Outcome State Fault Refusal := .next (s.whenRunning (·.writeFrom origin offset data))

/-- MANAGEMENT_WRITE (R166). -/
def execManagementWrite (origin : WriteOrigin) (offset : BitVec 24) (data : List Byte) (s : State) :
    Host.Outcome State Fault Refusal := .next (s.whenRunning (·.writeFrom origin offset data))

/-- WINDOW_IMAGE_WRITE (R49). -/
def execWindowImageWrite (origin : WriteOrigin) (offset : BitVec 24) (data : List Byte) (s : State) :
    Host.Outcome State Fault Refusal := .next (s.whenRunning (·.writeFrom origin offset data))

/-- NODE_IMAGE_WRITE (R56). -/
def execNodeImageWrite (origin : WriteOrigin) (offset : BitVec 24) (data : List Byte) (s : State) :
    Host.Outcome State Fault Refusal := .next (s.whenRunning (·.writeFrom origin offset data))

/-- RESTART (R176): command $01. -/
def execRestart (origin : WriteOrigin) (arg : Byte) (s : State) : Host.Outcome State Fault Refusal :=
  .next (s.whenRunning (·.writeFrom origin commandOffset [1, arg]))

/-- SEGRESET (R177): command $02. -/
def execSegreset (origin : WriteOrigin) (arg : Byte) (s : State) : Host.Outcome State Fault Refusal :=
  .next (s.whenRunning (·.writeFrom origin commandOffset [2, arg]))

/-- CLEAR_COUNTERS (R178): command $03. -/
def execClearCounters (origin : WriteOrigin) (arg : Byte) (s : State) : Host.Outcome State Fault Refusal :=
  .next (s.whenRunning (·.writeFrom origin commandOffset [3, arg]))

/-- CLEAR_QUIET (R179): command $04. -/
def execClearQuiet (origin : WriteOrigin) (arg : Byte) (s : State) : Host.Outcome State Fault Refusal :=
  .next (s.whenRunning (·.writeFrom origin commandOffset [4, arg]))

/-- FLUSH_RETENTION (R130): command $05. -/
def execFlushRetention (origin : WriteOrigin) (arg : Byte) (s : State) : Host.Outcome State Fault Refusal :=
  .next (s.whenRunning (·.writeFrom origin commandOffset [5, arg]))

/-- DROP_NOTICES (R142): command $06. -/
def execDropNotices (origin : WriteOrigin) (arg : Byte) (s : State) : Host.Outcome State Fault Refusal :=
  .next (s.whenRunning (·.writeFrom origin commandOffset [6, arg]))

/-- MANAGEMENT_REQUEST_SERVE (R168). -/
def execManagementRequestServe (s : State) : Host.Outcome State Fault Refusal := .next (s.whenRunning State.serveNext)

end Sys2Proof.Machine
end

