-- ==== Sys2Proof/Machine/Trunk.lean ====
section
/-! DEFINITION. TP's receiver, the end of a packet at the transmitter, and the meanings of the trunk packets
(05_issue_order_and_trunk_transmission.md, 09_the_trunk_link.md). -/

namespace Sys2Proof.Machine

/-! ### Receipt (R146, R147) -/

/-- The receiver takes packets (R146). -/
def LinkState.receives (l : LinkState) : Bool := l == .negotiate || l == .settle || l == .up

/-- The destination node ID that R147 compares. -/
def Packet.destination : Packet → Option NodeId
  | .rqr _ dest _ _ _ => some dest
  | .rqw _ dest _ _ _ => some dest
  | .psh dest _ _ _ => some dest
  | .cpl dest _ _ _ _ => some dest
  | .ntc _ dest _ _ => some dest
  | .cap _ => none
  | .capack _ => none
  | .credit _ _ => none
  | .keep => none

/-- The packet is misrouted (R147). -/
def TrunkPort.misrouted (t : TrunkPort) (p : Packet) : Bool :=
  match p.destination with
  | some dest => t.nodeId == 0 || dest != t.nodeId
  | none => false

/-- A valid packet restarts the link loss timer in SETTLE and UP (R156). -/
def State.lossRestarts (s : State) : State :=
  if s.tp.link = .settle ∨ s.tp.link = .up then s.onTp fun t => { t with linkLoss := s.lossInterval } else s

/-- TP takes a packet (R146, R147): lost, bad, misrouted, or handled by R148. -/
def State.receive (p : Packet) (handle : State → State) (s : State) : State :=
  if s.tp.link.receives = false then s
  else if p.formOk = false then s.bump .trunkCrc 1
  else if s.tp.misrouted p then s.lossRestarts.bump .trunkMisrouted 1
  else handle s.lossRestarts

/-- TP takes bytes that are no packet (R146); bytes that are one are not this event (log 3). -/
def State.receiveBad (bytes : List Byte) (s : State) : State :=
  if s.tp.link.receives ∧ parsePacket bytes = none then s.bump .trunkCrc 1 else s

/-! ### Each type (R148) -/

/-- A far CAP (R148, R152, R155, R157). -/
def State.takeCap (f : CapFields) (s : State) : State :=
  match s.tp.link with
  | .negotiate => (s.judgeCap f).arbitrate
  | .settle => ((s.leaveLink .farCap).enterAwaitRef).arbitrate
  | .up => ((s.leaveLink .farCap).enterAwaitRef).arbitrate
  | .isolated => s
  | .awaitRef => s
  | .failed => s

/-- A far CAPACK (R148, R153). -/
def State.takeCapack (f : CapFields) (s : State) : State :=
  if s.tp.link = .negotiate then (s.judgeCapack f).arbitrate else s

/-- A CREDIT (R148, R162). -/
def State.takeCredit (requestLimit pushLimit : Byte) (s : State) : State :=
  if s.tp.link = .settle ∨ s.tp.link = .up then
    (s.onTp fun t =>
      { t with
        requestLimit := creditRaise t.requestLimit requestLimit
        pushLimit := creditRaise t.pushLimit pushLimit }).arbitrate
  else s

/-- The lowest-numbered FREE incoming slot (R163). -/
def TrunkPort.freeSlot (t : TrunkPort) : Option MgmtIx := firstIx 2 fun i => (look t.slots i).isNone

/-- An RQR or RQW for the gateway (R148, R163). -/
def State.takeRequest (r : MgmtRequest) (s : State) : State :=
  match s.tp.link, s.tp.freeSlot with
  | .up, some i => s.onTp fun t => { t with slots := put t.slots i (some r), unserved := t.unserved ++ [i] }
  | _, _ => s.bump .trunkRefusedExtra 1

/-- The packet an incoming management request arrives in. -/
def managementPacket (tag : BitVec 5) (dest source : NodeId) (addr : FabricAddr) (body : MgmtBody) : Packet :=
  match body with
  | .rqr count => .rqr tag dest source addr count
  | .rqw payload => .rqw tag dest source addr payload

/-! ### The end of a packet (R89, R152, R164, R177) -/

/-- A CAPACK of the attempt in progress has gone (R152); it counts while it echoes the CAP accepted as it stands (log 9). -/
def State.capackGone (packet : Packet) (s : State) : State :=
  match packet, s.tp.farCap with
  | .capack f, some g =>
    if s.tp.link = .negotiate ∧ f = g then (s.onTp fun t => { t with acknowledged := true }).testComplete else s
  | _, _ => s

/-- A management CPL that answers a held slot has gone (R164). -/
def State.slotAnswered (slot : MgmtIx) (s : State) : State :=
  (s.onTp fun t => { t with slots := put t.slots slot none, grantedRequest := t.grantedRequest + 1 }).onIa fun a =>
    { a with creditClaim := true }

/-- What the end of a packet brings (R152, R164, R177). -/
def State.packetGone (packet : Packet) (effect : PacketEffect) (s : State) : State :=
  match effect with
  | .nothing => s
  | .capack true => s.capackGone packet
  | .capack false => s
  | .managementCpl slot held segreset =>
    let s₁ := if held then s.slotAnswered slot else s
    if segreset then s₁.segmentReset else s₁

/-- The transmitter returns to FREE (R89): the idle timer starts, the packet's effect comes, IA judges (R85, R90, R93). -/
def State.packetEnds (s : State) : State :=
  match s.ia.transmitter with
  | .free => s
  | .sending packet _ effect =>
    (((s.onIa fun a => { a with transmitter := .free }).startIdle).packetGone packet effect).arbitrate

/-! ### Meanings -/

/-- TRUNK_PACKET_END (R89). -/
def execTrunkPacketEnd (s : State) : Host.Outcome State Fault Refusal := .next (s.whenRunning State.packetEnds)

/-- TRUNK_BAD_PACKET (R146). -/
def execTrunkBadPacket (bytes : List Byte) (s : State) : Host.Outcome State Fault Refusal :=
  .next (s.whenRunning (·.receiveBad bytes))

/-- CAP (R152). -/
def execCap (fields : CapFields) (s : State) : Host.Outcome State Fault Refusal :=
  .next (s.whenRunning (·.receive (.cap fields) (·.takeCap fields)))

/-- CAPACK (R153). -/
def execCapack (fields : CapFields) (s : State) : Host.Outcome State Fault Refusal :=
  .next (s.whenRunning (·.receive (.capack fields) (·.takeCapack fields)))

/-- CREDIT (R162). -/
def execCredit (requestLimit pushLimit : Byte) (s : State) : Host.Outcome State Fault Refusal :=
  .next (s.whenRunning (·.receive (.credit requestLimit pushLimit) (·.takeCredit requestLimit pushLimit)))

/-- KEEP (R148): no action beyond that of every valid packet. -/
def execKeep (s : State) : Host.Outcome State Fault Refusal := .next (s.whenRunning (·.receive .keep id))

/-- INCOMING_MANAGEMENT_REQUEST (R163). -/
def execIncomingManagementRequest (tag : BitVec 5) (dest source : NodeId) (addr : FabricAddr) (body : MgmtBody) (s : State) :
    Host.Outcome State Fault Refusal :=
  .next (s.whenRunning (·.receive (managementPacket tag dest source addr body) (·.takeRequest ⟨tag, source, addr, body⟩)))

/-- PSH (R148): always dropped and counted. -/
def execPsh (dest source : NodeId) (addr : FabricAddr) (payload : List Byte) (s : State) : Host.Outcome State Fault Refusal :=
  .next (s.whenRunning (·.receive (.psh dest source addr payload) (·.bump .trunkRefusedExtra 1)))

/-- CPL (R100). -/
def execCpl (dest : NodeId) (tag : TagIx) (status : Byte) (remaining : BitVec 16) (payload : List Byte) (s : State) :
    Host.Outcome State Fault Refusal :=
  .next (s.whenRunning (·.receive (.cpl dest (BitVec.ofNat 5 tag.val) status remaining payload)
    (·.takeCompletion tag status remaining payload)))

/-- NTC (R134). -/
def execNtc (source dest : NodeId) (code : BitVec 16) (arg : BitVec 32) (s : State) : Host.Outcome State Fault Refusal :=
  .next (s.whenRunning (·.receive (.ntc source dest code arg) (·.noticeArrives source code arg)))

end Sys2Proof.Machine
end

