-- ==== Sys2Proof/Machine/Timers.lean ====
section
/-! DEFINITION. The meanings of the timers' expiries and of the changes of REFOK (02, 05 to 07, 09). A timer that does not run
does not expire (log 3). -/

namespace Sys2Proof.Machine

/-- One valid buffer whose expiry timer runs is invalidated (R125). -/
def RetentionUnit.expire (i : BufIx) (u : RetentionUnit) : RetentionUnit :=
  if (look u.buffers i).valid ∧ (look u.buffers i).timer ≠ none then
    { buffers := put u.buffers i Buffer.invalid, useOrder := u.useOrder.filter (· != i) }
  else u

/-- HOLD_TIMER_EXPIRY (R30, R31). -/
def execHoldTimerExpiry (record : RecIx) (s : State) : Host.Outcome State Fault Refusal :=
  .next (s.whenRunning (·.holdExpires record))

/-- COMPLETION_TIMER_EXPIRY (R108). -/
def execCompletionTimerExpiry (tag : TagIx) (s : State) : Host.Outcome State Fault Refusal :=
  .next (s.whenRunning (·.completionExpires tag))

/-- COOL_DOWN_EXPIRY (R110). -/
def execCoolDownExpiry (tag : TagIx) (s : State) : Host.Outcome State Fault Refusal :=
  .next (s.whenRunning (·.coolDownExpires tag))

/-- RETENTION_EXPIRY (R125). -/
def execRetentionExpiry (buffer : BufIx) (s : State) : Host.Outcome State Fault Refusal :=
  .next (s.whenRunning (·.onRu (·.expire buffer)))

/-- SEGMENT_HOLD_EXPIRY (R149). -/
def execSegmentHoldExpiry (s : State) : Host.Outcome State Fault Refusal := .next (s.whenRunning State.segmentHoldExpires)

/-- ATTEMPT_TIMER_EXPIRY (R154). -/
def execAttemptTimerExpiry (s : State) : Host.Outcome State Fault Refusal := .next (s.whenRunning State.attemptExpires)

/-- CAP_INTERVAL_EXPIRY (R151). -/
def execCapIntervalExpiry (s : State) : Host.Outcome State Fault Refusal := .next (s.whenRunning State.capIntervalExpires)

/-- SETTLE_TIMER_EXPIRY (R155). -/
def execSettleTimerExpiry (s : State) : Host.Outcome State Fault Refusal := .next (s.whenRunning State.settleExpires)

/-- LINK_LOSS_TIMER_EXPIRY (R156). -/
def execLinkLossTimerExpiry (s : State) : Host.Outcome State Fault Refusal := .next (s.whenRunning State.lossExpires)

/-- IDLE_TIMER_EXPIRY (R93). -/
def execIdleTimerExpiry (s : State) : Host.Outcome State Fault Refusal := .next (s.whenRunning State.idleExpires)

/-! ### REFOK (R150) -/

/-- A rise of REFOK at TP (R150). -/
def State.refokRises (s : State) : State := if s.tp.link = .awaitRef then s.enterNegotiate.arbitrate else s

/-- REFOK_RISE (R150): a pin that is already high does not rise (log 3). The pin's level is kept while RESETN is low (log 25). -/
def execRefokRise (s : State) : Host.Outcome State Fault Refusal :=
  if s.refok then .next s else .next ({ s with refok := true }.whenRunning State.refokRises)

/-- REFOK_FALL (R150): a pin that is already low does not fall (log 3). -/
def execRefokFall (s : State) : Host.Outcome State Fault Refusal :=
  if s.refok then .next ({ s with refok := false }.whenRunning State.refokFalls) else .next s

end Sys2Proof.Machine
end

