-- ==== Sys2Proof/Machine/Taken.lean ====
section
/-! DEFINITION. The meanings of the events in which one block takes another's report: the oldest one that fits, and nothing when
none waits (log 4). -/

namespace Sys2Proof.Machine

/-! ### Self-notices at NU (R135, R136) -/

/-- NU takes the oldest self-notice the block has offered. -/
def State.takeOffer (block : NoticeBlock) (s : State) : State :=
  match s.reports.offers.find? (·.block == block) with
  | none => s
  | some o =>
    (s.onReports fun r => { r with offers := r.offers.eraseP (·.block == block) }).noticeArrives o.source o.code o.arg

/-! ### Piece results at XU (R34, R35, R111) -/

/-- The oldest piece result of a record that XU has not taken. -/
def Reports.nextResult (r : Reports) (i : RecIx) : Option PieceResult := (r.pieceResults.find? (·.1 == i)).map (·.2)

/-- The oldest piece result of a record is taken out. -/
def State.resultTaken (i : RecIx) (s : State) : State :=
  s.onReports fun r => { r with pieceResults := r.pieceResults.eraseP (·.1 == i) }

/-- XU takes a piece success, where that is the record's oldest result (R34). -/
def State.pieceSucceeds (i : RecIx) (s : State) : State :=
  match s.reports.nextResult i with
  | some .success => (s.resultTaken i).takeSuccess i
  | some (.failure _ _) => s
  | none => s

/-- XU takes a piece failure, where that is the record's oldest result (R35); IA judges when the member leaves (R85). -/
def State.pieceFails (i : RecIx) (s : State) : State :=
  match s.reports.nextResult i with
  | some (.failure code detail) => ((s.resultTaken i).takeFailure i code detail).arbitrate
  | some .success => s
  | none => s

/-! ### Node reports at TU (R61, R62) -/

/-- TU takes one report of the sort for the slot, if one waits. -/
def State.takeNodeReport (slot : SlotIx) (r : NodeReport) (effect : State → State) (s : State) : State :=
  if s.reports.nodeReports.contains (slot, r) then
    effect (s.onReports fun q => { q with nodeReports := q.nodeReports.erase (slot, r) })
  else s

/-! ### Quarantine (R38, R61, R75) -/

def State.quarantineXu (slot : SlotIx) (s : State) : State :=
  if s.reports.quietAtXu.contains slot then
    ((s.onReports fun r => { r with quietAtXu := r.quietAtXu.erase slot }).forRecords (State.quarantineRecord slot)).arbitrate
  else s

/-- PQ takes a quarantine report: it tests the head when the head's node slot is the one reported (R75). -/
def State.quarantinePq (slot : SlotIx) (s : State) : State :=
  if s.reports.quietAtPq.contains slot then
    let t := s.onReports fun r => { r with quietAtPq := r.quietAtPq.erase slot }
    (if s.pq.headIs slot then t.testHead else t).arbitrate
  else s

/-- From here IA judges the slot not LIVE: `State.judgedLive` reads this list (R61; log 12). -/
def State.quarantineIa (slot : SlotIx) (s : State) : State :=
  s.onReports fun r => { r with quietAtIa := r.quietAtIa.filter (· != slot) }

/-! ### The link's leaving UP, and FAILED (R39, R40, R74, R76, R113, R129, R158) -/

def State.leftUpXu (s : State) : State :=
  match s.reports.leftAtXu with
  | [] => s
  | reason :: rest =>
    ((s.onReports fun r => { r with leftAtXu := rest }).forRecords (State.cutRecord reason)).arbitrate

def State.leftUpCu (s : State) : State :=
  match s.reports.leftAtCu with
  | [] => s
  | reason :: rest => ((s.onReports fun r => { r with leftAtCu := rest }).cutTags reason).arbitrate

def State.leftUpPq (s : State) : State :=
  match s.reports.leftAtPq with
  | [] => s
  | _ :: rest => (s.onReports fun r => { r with leftAtPq := rest }).cutStartedHead.arbitrate

def State.leftUpRu (s : State) : State :=
  match s.reports.leftAtRu with
  | [] => s
  | _ :: rest => (s.onReports fun r => { r with leftAtRu := rest }).buffersInvalidated

/-- IA withdraws the CREDIT and management CPL claims and stops the idle timer (R91 to R93, R158). -/
def State.leftUpIa (s : State) : State :=
  match s.reports.leftAtIa with
  | [] => s
  | _ :: rest =>
    (s.onReports fun r => { r with leftAtIa := rest }).onIa fun a =>
      { a with creditClaim := false, cplClaims := [], idleTimer := none }

def State.failedXu (s : State) : State :=
  match s.reports.failedAtXu with
  | 0 => s
  | n + 1 => ((s.onReports fun r => { r with failedAtXu := n }).forRecords State.failRecord).arbitrate

def State.failedPq (s : State) : State :=
  match s.reports.failedAtPq with
  | 0 => s
  | n + 1 => (s.onReports fun r => { r with failedAtPq := n }).cutAll.arbitrate

/-! ### Meanings -/

/-- SELF_NOTICE (R136). -/
def execSelfNotice (block : NoticeBlock) (s : State) : Host.Outcome State Fault Refusal :=
  .next (s.whenRunning (·.takeOffer block))

/-- PIECE_SUCCESS (R34). -/
def execPieceSuccess (record : RecIx) (s : State) : Host.Outcome State Fault Refusal :=
  .next (s.whenRunning (·.pieceSucceeds record))

/-- PIECE_FAILURE (R35). -/
def execPieceFailure (record : RecIx) (s : State) : Host.Outcome State Fault Refusal :=
  .next (s.whenRunning (·.pieceFails record))

/-- TIMEOUT_REPORT (R61). -/
def execTimeoutReport (slot : SlotIx) (s : State) : Host.Outcome State Fault Refusal :=
  .next (s.whenRunning (·.takeNodeReport slot .timeout (·.nodeTimesOut slot)))

/-- SUCCESS_REPORT (R62). -/
def execSuccessReport (slot : SlotIx) (s : State) : Host.Outcome State Fault Refusal :=
  .next (s.whenRunning (·.takeNodeReport slot .success (·.nodeSucceeds slot)))

/-- QUARANTINE_AT_XU (R38). -/
def execQuarantineAtXu (slot : SlotIx) (s : State) : Host.Outcome State Fault Refusal :=
  .next (s.whenRunning (·.quarantineXu slot))

/-- QUARANTINE_AT_PQ (R75). -/
def execQuarantineAtPq (slot : SlotIx) (s : State) : Host.Outcome State Fault Refusal :=
  .next (s.whenRunning (·.quarantinePq slot))

/-- QUARANTINE_AT_IA (R61). -/
def execQuarantineAtIa (slot : SlotIx) (s : State) : Host.Outcome State Fault Refusal :=
  .next (s.whenRunning (·.quarantineIa slot))

/-- LEAVING_UP_AT_XU (R39). -/
def execLeavingUpAtXu (s : State) : Host.Outcome State Fault Refusal := .next (s.whenRunning State.leftUpXu)

/-- LEAVING_UP_AT_CU (R113). -/
def execLeavingUpAtCu (s : State) : Host.Outcome State Fault Refusal := .next (s.whenRunning State.leftUpCu)

/-- LEAVING_UP_AT_PQ (R74). -/
def execLeavingUpAtPq (s : State) : Host.Outcome State Fault Refusal := .next (s.whenRunning State.leftUpPq)

/-- LEAVING_UP_AT_RU (R129). -/
def execLeavingUpAtRu (s : State) : Host.Outcome State Fault Refusal := .next (s.whenRunning State.leftUpRu)

/-- LEAVING_UP_AT_IA (R158). -/
def execLeavingUpAtIa (s : State) : Host.Outcome State Fault Refusal := .next (s.whenRunning State.leftUpIa)

/-- FAILED_AT_XU (R40). -/
def execFailedAtXu (s : State) : Host.Outcome State Fault Refusal := .next (s.whenRunning State.failedXu)

/-- FAILED_AT_PQ (R76). -/
def execFailedAtPq (s : State) : Host.Outcome State Fault Refusal := .next (s.whenRunning State.failedPq)

end Sys2Proof.Machine
end

