-- ==== Sys2Proof/Machine/Reset.lean ====
section
/-! DEFINITION. Power-on reset: the state of every block, RESETN rising and RESETN falling (R17, R42, R66, R79, R95, R117, R131,
R143, R149, R165, R181). -/

namespace Sys2Proof.Machine

/-- Every block in its POR state, with these straps; the pins and the command queue as given, the link in AWAIT_REF. -/
def State.por (sta : BitVec 5) (lrate : BitVec 3) (tpermit resetn refok : Bool) (pending : List Instr) : State where
  resetn := resetn
  refok := refok
  lp := ⟨lrate, sta.setWidth 8, .hunt, [], .idle, none⟩
  xu := ⟨Vector.replicate 8 Exchange.free, []⟩
  tu := ⟨Vector.replicate 16 Window.empty, Vector.replicate 32 Node.unused⟩
  pq := ⟨[]⟩
  ia := ⟨[], .free, false, false, false, [], none⟩
  cu := ⟨Vector.replicate 32 Tag.free⟩
  ru := ⟨Vector.replicate 4 Buffer.invalid, []⟩
  nu := ⟨[], 0, false⟩
  tp := ⟨.awaitRef, 0, 0, 0, 0, none, false, false, 0, 0, 0, 0, 0, 0, Vector.replicate 2 none, [], none, none, none, none, none⟩
  mu := ⟨Settings.por sta tpermit, Vector.replicate 13 0⟩
  reports := Reports.none
  pending := pending

/-- RESETN rises: the straps are taken, every block starts from POR, and the link enters AWAIT_REF, from which it goes on at once
when REFOK is high (R17, R149, R150). -/
def State.powerOn (sta : BitVec 5) (lrate : BitVec 3) (tpermit : Bool) (s : State) : State :=
  (State.por sta lrate tpermit true s.refok s.pending).enterAwaitRef.arbitrate

/-- POWER_ON_RESET (R17). It stands for a pulse of RESETN when RESETN is high (log 23). -/
def execPowerOnReset (sta : BitVec 5) (lrate : BitVec 3) (tpermit : Bool) (s : State) : Host.Outcome State Fault Refusal :=
  .next (s.powerOn sta lrate tpermit)

/-- RESETN falls: the part is held in power-on reset; what the straps gave stands until RESETN rises (R149; log 14). -/
def State.heldInReset (s : State) : State :=
  let t := State.por 0 s.lp.lrate false false s.refok s.pending
  { t with
    lp := { t.lp with station := s.lp.station }
    mu := { t.mu with settings := { t.mu.settings with station := s.mu.settings.station, permit := s.mu.settings.permit } } }

/-- RESETN_LOW (R149). -/
def execResetnLow (s : State) : Host.Outcome State Fault Refusal := .next s.heldInReset

end Sys2Proof.Machine
end

