-- ==== Sys2Proof/Machine/Dispatch.lean ====
section
/-! DEFINITION. One arm per command. -/

namespace Sys2Proof.Machine

def exec (i : Instr) (s : State) : Host.Outcome State Fault Refusal :=
  match i with
  | .powerOnReset sta lrate tpermit => Sys2Proof.Machine.execPowerOnReset sta lrate tpermit s
  | .resetnLow => Sys2Proof.Machine.execResetnLow s
  | .goodCharacter char => Sys2Proof.Machine.execGoodCharacter char s
  | .framingError => Sys2Proof.Machine.execFramingError s
  | .lineSilence => Sys2Proof.Machine.execLineSilence s
  | .lengthAbandon length => Sys2Proof.Machine.execLengthAbandon length s
  | .lineFrame chars => Sys2Proof.Machine.execLineFrame chars s
  | .read xno payload => Sys2Proof.Machine.execRead xno payload s
  | .write xno payload => Sys2Proof.Machine.execWrite xno payload s
  | .push broadcast xno payload => Sys2Proof.Machine.execPush broadcast xno payload s
  | .poll xno payload => Sys2Proof.Machine.execPoll xno payload s
  | .turnaround => Sys2Proof.Machine.execTurnaround s
  | .replyEnd => Sys2Proof.Machine.execReplyEnd s
  | .stationWrite origin value => Sys2Proof.Machine.execStationWrite origin value s
  | .settingsWrite origin offset data => Sys2Proof.Machine.execSettingsWrite origin offset data s
  | .managementWrite origin offset data => Sys2Proof.Machine.execManagementWrite origin offset data s
  | .windowImageWrite origin offset data => Sys2Proof.Machine.execWindowImageWrite origin offset data s
  | .nodeImageWrite origin offset data => Sys2Proof.Machine.execNodeImageWrite origin offset data s
  | .restart origin arg => Sys2Proof.Machine.execRestart origin arg s
  | .segreset origin arg => Sys2Proof.Machine.execSegreset origin arg s
  | .clearCounters origin arg => Sys2Proof.Machine.execClearCounters origin arg s
  | .clearQuiet origin arg => Sys2Proof.Machine.execClearQuiet origin arg s
  | .flushRetention origin arg => Sys2Proof.Machine.execFlushRetention origin arg s
  | .dropNotices origin arg => Sys2Proof.Machine.execDropNotices origin arg s
  | .managementRequestServe => Sys2Proof.Machine.execManagementRequestServe s
  | .holdTimerExpiry record => Sys2Proof.Machine.execHoldTimerExpiry record s
  | .completionTimerExpiry tag => Sys2Proof.Machine.execCompletionTimerExpiry tag s
  | .coolDownExpiry tag => Sys2Proof.Machine.execCoolDownExpiry tag s
  | .retentionExpiry buffer => Sys2Proof.Machine.execRetentionExpiry buffer s
  | .segmentHoldExpiry => Sys2Proof.Machine.execSegmentHoldExpiry s
  | .refokRise => Sys2Proof.Machine.execRefokRise s
  | .refokFall => Sys2Proof.Machine.execRefokFall s
  | .attemptTimerExpiry => Sys2Proof.Machine.execAttemptTimerExpiry s
  | .capIntervalExpiry => Sys2Proof.Machine.execCapIntervalExpiry s
  | .settleTimerExpiry => Sys2Proof.Machine.execSettleTimerExpiry s
  | .linkLossTimerExpiry => Sys2Proof.Machine.execLinkLossTimerExpiry s
  | .idleTimerExpiry => Sys2Proof.Machine.execIdleTimerExpiry s
  | .trunkPacketEnd => Sys2Proof.Machine.execTrunkPacketEnd s
  | .trunkBadPacket bytes => Sys2Proof.Machine.execTrunkBadPacket bytes s
  | .cap fields => Sys2Proof.Machine.execCap fields s
  | .capack fields => Sys2Proof.Machine.execCapack fields s
  | .credit requestLimit pushLimit => Sys2Proof.Machine.execCredit requestLimit pushLimit s
  | .keep => Sys2Proof.Machine.execKeep s
  | .incomingManagementRequest tag dest source addr body => Sys2Proof.Machine.execIncomingManagementRequest tag dest source addr body s
  | .psh dest source addr payload => Sys2Proof.Machine.execPsh dest source addr payload s
  | .cpl dest tag status remaining payload => Sys2Proof.Machine.execCpl dest tag status remaining payload s
  | .ntc source dest code arg => Sys2Proof.Machine.execNtc source dest code arg s
  | .selfNotice block => Sys2Proof.Machine.execSelfNotice block s
  | .pieceSuccess record => Sys2Proof.Machine.execPieceSuccess record s
  | .pieceFailure record => Sys2Proof.Machine.execPieceFailure record s
  | .timeoutReport slot => Sys2Proof.Machine.execTimeoutReport slot s
  | .successReport slot => Sys2Proof.Machine.execSuccessReport slot s
  | .quarantineAtXu slot => Sys2Proof.Machine.execQuarantineAtXu slot s
  | .quarantineAtPq slot => Sys2Proof.Machine.execQuarantineAtPq slot s
  | .quarantineAtIa slot => Sys2Proof.Machine.execQuarantineAtIa slot s
  | .leavingUpAtXu => Sys2Proof.Machine.execLeavingUpAtXu s
  | .leavingUpAtCu => Sys2Proof.Machine.execLeavingUpAtCu s
  | .leavingUpAtPq => Sys2Proof.Machine.execLeavingUpAtPq s
  | .leavingUpAtRu => Sys2Proof.Machine.execLeavingUpAtRu s
  | .leavingUpAtIa => Sys2Proof.Machine.execLeavingUpAtIa s
  | .failedAtXu => Sys2Proof.Machine.execFailedAtXu s
  | .failedAtPq => Sys2Proof.Machine.execFailedAtPq s

end Sys2Proof.Machine
end

