-- ==== Sys2Proof/Machine/Characters.lean ====
section
/-! DEFINITION. The characters of the line as levels on LRXD and LTXD, one for each bit period, true for the high, stop level (R1;
log 16). What LRXD carries becomes the commands GOOD_CHARACTER and FRAMING_ERROR; what LP sends becomes the levels of LTXD. -/

namespace Sys2Proof.Machine

/-- The eight data bits of a character, the least significant first (R1). -/
def dataBits (b : Byte) : List Bool := (List.range 8).map b.getLsbD

/-- A character: a low start bit, the data bits, a high stop bit, no parity (R1). -/
def characterLevels (b : Byte) : List Bool := false :: (dataBits b ++ [true])

/-- Characters sent back to back, with no idle time between them (R1). -/
def frameLevels (chars : List Byte) : List Bool := chars.flatMap characterLevels

/-- The byte that data bits spell, the least significant first (R1). -/
def byteOfBits (bits : List Bool) : Byte := BitVec.ofNat 8 (bits.foldr (fun bit n => 2 * n + bit.toNat) 0)

/-- What the receiver has of a character: it waits for a start bit; it holds the data bits heard so far; or, after a framing error,
the line has not yet returned to the stop level (R1). -/
inductive LineReceiver where
  | waiting
  | inCharacter (bits : List Bool)
  | heldLow
  deriving DecidableEq, Repr

/-- One level is heard: the receiver after it, and the command that a stop bit completes (R1). -/
def LineReceiver.hear (level : Bool) : LineReceiver → LineReceiver × Option Instr
  | .waiting => (if level then .waiting else .inCharacter [], none)
  | .inCharacter bits =>
    if bits.length < 8 then (.inCharacter (bits ++ [level]), none)
    else if level then (.waiting, some (.goodCharacter (byteOfBits bits)))
    else (.heldLow, some .framingError)
  | .heldLow => (if level then .waiting else .heldLow, none)

/-- The commands that the levels on LRXD bring, in order (R1). -/
def LineReceiver.commands (r : LineReceiver) : List Bool → List Instr
  | [] => []
  | level :: levels => (r.hear level).2.toList ++ (r.hear level).1.commands levels

/-- The state with what LRXD carries behind the commands that wait (R1; log 16). -/
def State.hearsLine (r : LineReceiver) (levels : List Bool) (s : State) : State :=
  { s with pending := s.pending ++ r.commands levels }

/-- The levels LP drives on LTXD: its reply in SEND, else the idle level (R1, R11, R17). -/
def State.ltxdLevels (s : State) : List Bool :=
  if s.resetn then
    match s.lp.transmitter with
    | .send frame _ => frameLevels frame
    | .wait _ => [true]
    | .idle => [true]
  else [true]

end Sys2Proof.Machine
end

