-- ==== Sys2Proof/WellFormed.lean ====
section
/-! DEFINITION. The operands each command may carry. A meaning is defined on every operand; an operand outside these spells an
event that the spec does not describe, or one that belongs to another row (log 18). -/

namespace Sys2Proof

/-- Most data bytes of a management write from this port: a line WRITE (R9), an RQW (R183). -/
def WriteOrigin.maxData : WriteOrigin → Nat
  | .line _ => 240
  | .trunk => 512

/-- A management write carries data its port can carry. -/
def WriteOrigin.carries (origin : WriteOrigin) (data : List Byte) : Bool :=
  1 ≤ data.length && data.length ≤ origin.maxData

/-- An offset lies in a region of the management space (R166). -/
def inRegion (r : Machine.Region) (offset : BitVec 24) : Bool :=
  r.base ≤ offset.toNat && offset.toNat < r.base + r.size

/-- A command write that has a row of its own (R175). -/
def isCommandWrite (offset : BitVec 24) (data : List Byte) : Bool :=
  offset.toNat == Machine.Region.command.base && data.length == 2 && 1 ≤ (data.getD 0 0).toNat && (data.getD 0 0).toNat ≤ 6

/-- An offset and data with no row of their own (MANAGEMENT_WRITE, R166). -/
def noOwnRow (offset : BitVec 24) (data : List Byte) : Bool :=
  !inRegion .settings offset && !inRegion .windows offset && !inRegion .nodes offset && !isCommandWrite offset data

/-- A request's payload fits a line frame (R3). -/
def fitsLine (payload : List Byte) : Bool := payload.length ≤ Config.maxLinePayload

/-- The counts of an incoming management request (R183). -/
def MgmtBody.ok : MgmtBody → Bool
  | .rqr count => 1 ≤ count.toNat && count.toNat ≤ 512
  | .rqw payload => 1 ≤ payload.length && payload.length ≤ 512

/-- The check of a command's operands. -/
def Instr.wellFormed : Instr → Bool
  | .lengthAbandon length => Config.maxLinePayload < length.toNat
  | .lineFrame chars => !chars.isEmpty
  | .read _ payload => fitsLine payload
  | .write _ payload => fitsLine payload
  | .push _ _ payload => fitsLine payload
  | .poll _ payload => fitsLine payload
  | .settingsWrite origin offset data => origin.carries data && inRegion .settings offset
  | .managementWrite origin offset data => origin.carries data && noOwnRow offset data
  | .windowImageWrite origin offset data => origin.carries data && inRegion .windows offset
  | .nodeImageWrite origin offset data => origin.carries data && inRegion .nodes offset
  | .capack fields => fields.nodeId.toNat < 4096
  | .trunkBadPacket bytes => (Machine.parsePacket bytes).isNone
  | .incomingManagementRequest _ _ _ _ body => body.ok
  | .psh _ _ _ payload => 1 ≤ payload.length && payload.length ≤ 512
  | .cpl _ _ _ _ payload => payload.length ≤ 512
  | _ => true

end Sys2Proof
end

