-- ==== Sys2Proof/Safety.lean ====
section
/-! DEFINITION. The words the statements under Certificates are made of: requests as commands, replies and counts as they change a
block, and what every reachable state keeps, block by block. -/

namespace Sys2Proof.Machine

/-! ### Words of the statements -/

/-- The command that hands an accepted request to its handler. -/
def LineRequest.command (r : LineRequest) : Instr :=
  match r.kind with
  | .read => .read r.xno r.payload
  | .write => .write r.xno r.payload
  | .push => .push r.broadcast r.xno r.payload
  | .poll => .poll r.xno r.payload

/-- The part runs and LP hands this request to its handler, which leaves the Line Port as `l` (R11, R15; log 6). -/
abbrev State.Takes (s : State) (r : LineRequest) (l : LinePort) : Prop := s.resetn = true ∧ s.lp.take r = some l

/-- As `State.Takes`, for an addressed request of good form that the Last Reply Record does not answer (R9, R14). -/
abbrev State.TakesNew (s : State) (r : LineRequest) (l : LinePort) : Prop :=
  s.Takes r l ∧ r.broadcast = false ∧ r.wellFormed = true ∧ s.replayFor r = none

/-- An addressed WRITE to unit 0. -/
def unitZeroRequest (xno : Xno) (offset : BitVec 24) (data : List Byte) : LineRequest :=
  ⟨false, .write, xno, unitZeroWrite offset data⟩

/-- The reply is handed to the transmitter and not stored (R13). -/
def LinePort.gives (r : LineRequest) (kind : ReplyKind) (payload : List Byte) (l : LinePort) : LinePort :=
  { l with transmitter := .wait (some ⟨⟨kind, r.xno, payload⟩, .nothing⟩) }

/-- The reply is handed to the transmitter and stored in the Last Reply Record (R13). -/
def LinePort.givesStored (r : LineRequest) (kind : ReplyKind) (payload : List Byte) (effect : ReplyEffect) (l : LinePort) :
    LinePort :=
  { l with
    transmitter := .wait (some ⟨⟨kind, r.xno, payload⟩, effect⟩)
    lastReply := some (r.signature, ⟨kind, r.xno, payload⟩) }

/-- A counter raised by `n`, saturating (R174). -/
def ManagementUnit.counts (c : Counter) (n : Nat) (m : ManagementUnit) : ManagementUnit :=
  { m with counters := put m.counters c.ix (satAdd (look m.counters c.ix) n) }

/-- A self-notice offered in a state, if its enable mask allows it (R135). -/
def Reports.offering (s : State) (c : NoticeCode) (arg : Nat) (r : Reports) : Reports :=
  if maskAllows s.mu.settings.mask c then
    { r with offers := r.offers ++ [⟨c.block, s.tp.nodeId, c.code, BitVec.ofNat 32 arg⟩] }
  else r

/-! ### NU (R132, R133, R139) -/

/-- The key of an entry (R132). -/
def Notice.key (n : Notice) : NodeId × BitVec 16 × BitVec 32 := (n.source, n.code, n.arg)

/-- The serials the queue must hold: each one more than the one before, the last one less than the counter (R132, R133). -/
def serialsOf (serial : Byte) : Nat → List Byte
  | 0 => []
  | n + 1 => (serial - BitVec.ofNat 8 (n + 1)) :: serialsOf serial n

/-- At most 32 entries, consecutive serials, counts 1..255, only the head sent, one unsent entry for a key (R132, R133). -/
abbrev NoticesOk (u : NoticeUnit) : Prop :=
  u.queue.length ≤ 32
    ∧ u.queue.map Notice.serial = serialsOf u.serial u.queue.length
    ∧ (∀ n ∈ u.queue, 1 ≤ n.count ∧ n.count ≤ 255)
    ∧ (∀ n ∈ u.queue.tail, n.sent = false)
    ∧ ((u.queue.filter fun n => !n.sent).map Notice.key).Nodup

/-- The overrun flag is never set while the queue is empty (R139), with what keeps it so: a sent head that has not reported the
flag does not stand alone under it. -/
abbrev OverrunOk (u : NoticeUnit) : Prop :=
  (∀ n ∈ u.queue, n.overrunReported = true → n.sent = true)
    ∧ (u.overrun = true →
        u.queue ≠ [] ∧ ∀ n ∈ u.queue.head?, n.sent = true → n.overrunReported = false → 2 ≤ u.queue.length)

/-! ### PQ (R67, R68) -/

/-- At most 16 pushes and 1024 bytes; each 1..240 bytes long with bytes unissued; only the head started (R67, R68). -/
abbrev PushesOk (q : PushQueue) : Prop :=
  q.pushes.length ≤ 16 ∧ q.bytesHeld ≤ 1024
    ∧ (∀ p ∈ q.pushes, 1 ≤ p.length ∧ p.length ≤ 240 ∧ p.issued < p.length)
    ∧ (∀ p ∈ q.pushes.tail, p.issued = 0)

/-! ### XU (R18, R21, R28, R37) -/

/-- No two records that are not FREE hold the same xno (R20, R21). -/
abbrev XnosOk (u : ExchangeUnit) : Prop :=
  ∀ i j : RecIx, i ≠ j → (look u.records i).state ≠ .free → (look u.records j).state ≠ .free →
    (look u.records i).xno ≠ (look u.records j).xno

/-- The answer ranks are those of the ANSWERED records, each once (R28). -/
abbrev AnswerRanksOk (u : ExchangeUnit) : Prop :=
  u.answerOrder.Nodup ∧ ∀ i : RecIx, i ∈ u.answerOrder ↔ (look u.records i).state = .answered

/-- A record's fields agree with its state (R18, R29, R37). -/
abbrev Exchange.ok (e : Exchange) : Prop :=
  e.nextOffset ≤ e.issueLength ∧ e.issueLength ≤ 256 ∧ e.requestedLength ≤ e.issueLength
    ∧ (e.holdTimer ≠ none ↔ e.state = .ready ∨ e.state = .answered)
    ∧ (e.state = .queued → e.nextOffset = 0 ∧ e.piecesIssued = 0 ∧ e.outstanding = 0 ∧ e.abandoned = false ∧ e.result = .pending)
    ∧ (e.state = .ready ∨ e.state = .answered → e.outstanding = 0 ∧ e.hasUnissued = false ∧ e.result ≠ .pending)
    ∧ (e.state = .active → e.result ≠ .ok)

abbrev RecordsOk (u : ExchangeUnit) : Prop := ∀ i : RecIx, (look u.records i).ok

/-- Pieces issued never pass the multiples of 64 bytes crossed, and a started exchange with unissued pieces stands on one (R86): so an
exchange is carved into at most 5 pieces (R18). -/
abbrev CarvingOk (u : ExchangeUnit) : Prop :=
  ∀ i : RecIx, (look u.records i).piecesIssued ≤ 5
    ∧ ((look u.records i).hasUnissued = true →
        (look u.records i).piecesIssued
            ≤ ((look u.records i).addr.toNat + (look u.records i).nextOffset) / 64 - (look u.records i).addr.toNat / 64
          ∧ ((look u.records i).piecesIssued ≠ 0 →
              ((look u.records i).addr.toNat + (look u.records i).nextOffset) % 64 = 0))

/-! ### IA (R80, R85) -/

/-- The Order List holds the pushes in the Push Queue and the QUEUED or ACTIVE exchanges with unissued pieces, each once (R80). -/
abbrev OrderListOk (s : State) : Prop :=
  s.ia.orderList.count .push = s.pq.pushes.length
    ∧ ∀ i : RecIx, s.ia.orderList.count (.exchange i) =
        if (s.record i).inWork ∧ (s.record i).hasUnissued then 1 else 0

/-- A FREE transmitter leaves nothing waiting that it could send (R85, R90). -/
abbrev NothingWaits (s : State) : Prop := s.arbitrate = s

/-! ### CU (R96, R97, R111) -/

/-- A tag's fields agree with its state (R96, R99, R105, R110). -/
abbrev Tag.ok (t : Tag) : Prop :=
  match t.state with
  | .free => t = Tag.free
  | .busy => t.timer = .completion (Config.ms t.timeout) ∧ t.received ≤ t.length
  | .cooling => t.timer = .coolDown (Config.ms t.timeout)

abbrev TagsOk (u : CompletionUnit) : Prop := ∀ t : TagIx, (look u.tags t).ok

/-- BUSY tags that a record owns. -/
def CompletionUnit.ownedBy (u : CompletionUnit) (i : RecIx) : Nat :=
  countIx 32 fun t => (look u.tags t).state == .busy && (look u.tags t).owner == some i

/-- A record's outstanding count is its BUSY tags and the piece results XU has not yet taken (R18, R33 to R35, R111). -/
abbrev OutstandingOk (s : State) : Prop :=
  ∀ i : RecIx,
    s.cu.ownedBy i + s.reports.pieceResults.countP (fun r => r.1 == i) = if (s.record i).inWork then (s.record i).outstanding else 0

/-- Each slot's BUSY count lies in 0..8 (R97). -/
abbrev BusyCountsOk (s : State) : Prop := ∀ n : SlotIx, s.cu.busyCount n ≤ 8

/-! ### TU (R44, R50, R52, R54, R56) -/

/-- The values a node slot may hold (R52, R56). -/
abbrev Node.ok (n : Node) : Prop :=
  if n.state = .unused then n = Node.unused
  else 1 ≤ n.nodeId.toNat ∧ n.nodeId.toNat ≤ 4094
    ∧ (n.pieceSize = 64 ∨ n.pieceSize = 128 ∨ n.pieceSize = 256 ∨ n.pieceSize = 512)
    ∧ 1 ≤ n.limit.toNat ∧ n.limit.toNat ≤ 8 ∧ 1 ≤ n.timeout.toNat ∧ n.threshold.toNat ≤ 15 ∧ n.count ≤ 15

abbrev NodesOk (u : TranslationUnit) : Prop := ∀ i : SlotIx, (look u.nodes i).ok

/-- Valid windows name slots that are not UNUSED; no two node slots share an ID; no two valid windows share a unit (R50, R54). -/
abbrev RelationsOk (u : TranslationUnit) : Prop :=
  (∀ i : WinIx, (look u.windows i).valid = true → (look u.nodes (look u.windows i).slot).state ≠ .unused)
    ∧ (∀ i j : SlotIx, i ≠ j → (look u.nodes i).state ≠ .unused → (look u.nodes j).state ≠ .unused →
        (look u.nodes i).nodeId ≠ (look u.nodes j).nodeId)
    ∧ (∀ i j : WinIx, i ≠ j → (look u.windows i).valid = true → (look u.windows j).valid = true →
        (look u.windows i).sharesUnit (look u.windows j) = false)

/-! ### RU (R119) -/

/-- The use ranks are those of the valid buffers, each once; an invalid buffer is empty, a valid one's timer runs (R119). -/
abbrev BuffersOk (u : RetentionUnit) : Prop :=
  u.useOrder.Nodup
    ∧ (∀ i : BufIx, i ∈ u.useOrder ↔ (look u.buffers i).valid = true)
    ∧ ∀ i : BufIx, if (look u.buffers i).valid then (look u.buffers i).timer ≠ none else look u.buffers i = Buffer.invalid

/-! ### TP (R149 to R161, R173) -/

/-- Which of TP's timers run in each link state (R149, R151, R155, R156). -/
abbrev LinkTimersOk (s : State) : Prop :=
  (s.tp.segmentHold ≠ none ↔ s.tp.link = .isolated)
    ∧ (s.tp.attemptTimer ≠ none ↔ s.tp.link = .negotiate)
    ∧ (s.tp.capInterval ≠ none ↔ s.tp.link = .negotiate)
    ∧ (s.tp.settle ≠ none ↔ s.tp.link = .settle)
    ∧ (s.tp.linkLoss ≠ none ↔ s.tp.link = .settle ∨ s.tp.link = .up)

/-- The outgoing credits are 0 in every link state but SETTLE and UP (R173). -/
abbrev CreditsOk (s : State) : Prop :=
  s.tp.link ≠ .settle → s.tp.link ≠ .up →
    s.tp.requestLimit = 0 ∧ s.tp.requestConsumed = 0 ∧ s.tp.pushLimit = 0 ∧ s.tp.pushConsumed = 0

/-- The accepted far CAP is acceptable; in SETTLE and UP the negotiated values are in range; attempts are 1..8; the link does not
wait in AWAIT_REF while REFOK is high (R150 to R153). -/
abbrev NegotiationOk (s : State) : Prop :=
  (∀ f ∈ s.tp.farCap, capAcceptable f = true)
    ∧ (s.tp.link = .negotiate → 1 ≤ s.tp.attempt ∧ s.tp.attempt ≤ 8)
    ∧ (s.tp.link = .settle ∨ s.tp.link = .up →
        1 ≤ s.tp.rateClass.toNat ∧ s.tp.rateClass.toNat ≤ 4
          ∧ (s.tp.pieceMax = 64 ∨ s.tp.pieceMax = 128 ∨ s.tp.pieceMax = 256 ∨ s.tp.pieceMax = 512)
          ∧ 1 ≤ s.tp.nodeId.toNat ∧ s.tp.nodeId.toNat ≤ 4094)
    ∧ (s.resetn = true → s.refok = true → s.tp.link ≠ .awaitRef)

/-! ### MU and LP (R3, R11, R171) -/

/-- The settings hold values of R171; the station may hold a strap value. -/
abbrev SettingsOk (t : Settings) : Prop :=
  1 ≤ t.hold.toNat ∧ 1 ≤ t.retention.toNat ∧ 1 ≤ t.segmentHold.toNat ∧ 1 ≤ t.linkLoss.toNat ∧ t.linkLoss.toNat ≤ 15
    ∧ t.station.toNat ≤ 31 ∧ t.permit.toNat ≤ 1 ∧ t.mask.toNat ≤ 0x7F

/-- The assembler is in HUNT while the transmitter is in SEND (R11), and never holds a whole frame or a length above 244 (R3). -/
abbrev LineOk (l : LinePort) : Prop :=
  match l.assembler with
  | .hunt => True
  | .inFrame bytes =>
    l.hears = true
      ∧ (bytes.length < 3 ∨ (byteAt bytes 2).toNat ≤ 244 ∧ bytes.length < (byteAt bytes 2).toNat + 5)

end Sys2Proof.Machine
end

