-- ==== Sys2Proof/Certificates/Slice0/Obligations.lean ====
section
/-! DEFINITION. The statements for the provers. Each says in full what a command leaves changed: `{ s with … }` is the state s in
every field that is not named. -/

open Sys2Proof Sys2Proof.Machine

/-! ### The queue -/

/-- A step takes the command at the front of the queue and carries it out on the state with the queue's rest; on an empty queue the
block idles (log 2). -/
def Obligations.StepTakesTheFront : Prop :=
  (∀ (c : Instr) (rest : List Instr) (s : State), s.pending = c :: rest → step s = exec c { s with pending := rest })
    ∧ ∀ s : State, s.pending = [] → step s = .next s

/-- Every command answers a next state and leaves the queue alone. -/
def Obligations.NoCommandStops : Prop :=
  ∀ (c : Instr) (s : State), ∃ t, exec c s = .next t ∧ t.pending = s.pending

/-! ### Resets -/

/-- POWER_ON_RESET sets every block to its POR state with the straps; with REFOK high the link goes on to NEGOTIATE, attempt 1, and
the first CAP is sent (log 23). -/
def Obligations.PowerOnReset : Prop :=
  ∀ (sta : BitVec 5) (lrate : BitVec 3) (tpermit : Bool) (s : State), ∃ t,
    exec (.powerOnReset sta lrate tpermit) s = .next t
      ∧ t.resetn = true ∧ t.refok = s.refok ∧ t.pending = s.pending
      ∧ t.lp = ⟨lrate, sta.setWidth 8, .hunt, [], .idle, none⟩
      ∧ t.xu = ⟨Vector.replicate 8 Exchange.free, []⟩
      ∧ t.tu = ⟨Vector.replicate 16 Window.empty, Vector.replicate 32 Node.unused⟩
      ∧ t.pq = ⟨[]⟩ ∧ t.cu = ⟨Vector.replicate 32 Tag.free⟩ ∧ t.ru = ⟨Vector.replicate 4 Buffer.invalid, []⟩
      ∧ t.nu = ⟨[], 0, false⟩ ∧ t.reports = Reports.none
      ∧ t.mu = ⟨⟨50, 5, 10, 2, sta.setWidth 8, if tpermit then 1 else 0, 0x7F⟩, Vector.replicate 13 0⟩
      ∧ t.tp = ⟨if s.refok then .negotiate else .awaitRef, 0, 0, 0, if s.refok then 1 else 0, none, false, false, 0, 0, 0, 0, 0, 0,
          Vector.replicate 2 none, [], none, if s.refok then some 1000 else none, if s.refok then some 100 else none, none, none⟩
      ∧ t.ia = ⟨[], if s.refok then .sending (.cap ⟨4, 512, 2, 0, 0⟩) 1 .nothing else .free, false, false, false, [], none⟩

/-- RESETN_LOW: TRST and LDE low, LTXD high, every block at its POR state; then no command but POWER_ON_RESET changes anything but
the level of REFOK (logs 14 and 25). -/
def Obligations.ResetnLow : Prop :=
  (∀ s : State, ∃ t,
    exec .resetnLow s = .next t
      ∧ t.resetn = false ∧ t.trst = false ∧ t.lde = false ∧ t.ltxdIdle = true ∧ t.refok = s.refok ∧ t.pending = s.pending
      ∧ t.lp = ⟨s.lp.lrate, s.lp.station, .hunt, [], .idle, none⟩
      ∧ t.xu = ⟨Vector.replicate 8 Exchange.free, []⟩
      ∧ t.tu = ⟨Vector.replicate 16 Window.empty, Vector.replicate 32 Node.unused⟩
      ∧ t.pq = ⟨[]⟩ ∧ t.cu = ⟨Vector.replicate 32 Tag.free⟩ ∧ t.ru = ⟨Vector.replicate 4 Buffer.invalid, []⟩
      ∧ t.nu = ⟨[], 0, false⟩ ∧ t.reports = Reports.none
      ∧ t.mu = ⟨⟨50, 5, 10, 2, s.mu.settings.station, s.mu.settings.permit, 0x7F⟩, Vector.replicate 13 0⟩
      ∧ t.tp = ⟨.awaitRef, 0, 0, 0, 0, none, false, false, 0, 0, 0, 0, 0, 0, Vector.replicate 2 none, [], none, none, none, none, none⟩
      ∧ t.ia = ⟨[], .free, false, false, false, [], none⟩)
  ∧ ∀ (c : Instr) (s : State), s.resetn = false → s.heldInReset = s → (∀ sta lrate tpermit, c ≠ .powerOnReset sta lrate tpermit) →
    exec c s = .next { s with refok := if c = .refokRise then true else if c = .refokFall then false else s.refok }

/-! ### Characters and frames on the line -/

/-- A good character: in HUNT a $A5 starts a frame and any other value is discarded; in IN_FRAME the byte joins the frame until the
length rule or the end of the frame applies; a length byte above 244 brings HUNT and one count; the byte that ends a frame does what
LINE_FRAME of the whole frame does in HUNT, and a LINE_FRAME is its characters heard in their order; in SEND nothing is heard.
FRAMING_ERROR, LINE_SILENCE and LENGTH_ABANDON inside a frame: HUNT, and the line CRC counter up by one; a framing error or a
silence in HUNT does nothing.
A character is a low start bit, eight data bits, the least significant first, and a high stop bit: characters heard with any idle time
between them are their GOOD_CHARACTERs; a low stop bit, however long the line then stays low, is one FRAMING_ERROR; LTXD carries a
reply's characters back to back, and else stands high (log 16). -/
def Obligations.CharactersAreGathered : Prop :=
  (∀ (s : State) (b : Byte), s.resetn = true →
     (s.lp.hears = true → s.lp.assembler = .hunt → b = 0xA5 →
       exec (.goodCharacter b) s = .next { s with lp := { s.lp with assembler := .inFrame [] } })
     ∧ (s.lp.hears = true → s.lp.assembler = .hunt → b ≠ 0xA5 → exec (.goodCharacter b) s = .next s)
     ∧ (∀ bytes : List Byte, s.lp.hears = true → s.lp.assembler = .inFrame bytes →
         (bytes.length < 2 ∨ bytes.length = 2 ∧ b.toNat ≤ 244
           ∨ 3 ≤ bytes.length ∧ bytes.length + 1 < (byteAt bytes 2).toNat + 5) →
         exec (.goodCharacter b) s = .next { s with lp := { s.lp with assembler := .inFrame (bytes ++ [b]) } })
     ∧ (∀ bytes : List Byte, s.lp.hears = true → s.lp.assembler = .inFrame bytes → bytes.length = 2 → 244 < b.toNat →
         exec (.goodCharacter b) s = .next { s with lp := { s.lp with assembler := .hunt }, mu := s.mu.counts .lineCrc 1 })
     ∧ (∀ bytes : List Byte, s.lp.hears = true → s.lp.assembler = .inFrame bytes → 3 ≤ bytes.length →
         (byteAt bytes 2).toNat ≤ 244 → bytes.length + 1 = (byteAt bytes 2).toNat + 5 →
         exec (.goodCharacter b) s
           = exec (.lineFrame (0xA5 :: (bytes ++ [b]))) { s with lp := { s.lp with assembler := .hunt } })
     ∧ (s.lp.hears = false → exec (.goodCharacter b) s = .next s)
     ∧ exec (.lineFrame []) s = .next s
     ∧ ∀ (chars : List Byte) (t : State), exec (.goodCharacter b) s = .next t →
         exec (.lineFrame (b :: chars)) s = exec (.lineFrame chars) t)
  ∧ (∀ (s : State) (bytes : List Byte) (length : Byte), s.resetn = true → s.lp.hears = true →
       (s.lp.assembler = .inFrame bytes →
         exec .framingError s = .next { s with lp := { s.lp with assembler := .hunt }, mu := s.mu.counts .lineCrc 1 }
         ∧ exec .lineSilence s = .next { s with lp := { s.lp with assembler := .hunt }, mu := s.mu.counts .lineCrc 1 }
         ∧ (bytes.length = 2 → 244 < length.toNat →
             exec (.lengthAbandon length) s = .next { s with lp := { s.lp with assembler := .hunt }, mu := s.mu.counts .lineCrc 1 }))
       ∧ (s.lp.assembler = .hunt → exec .framingError s = .next s ∧ exec .lineSilence s = .next s))
  ∧ (∀ b : Byte,
       characterLevels b = [false, b.getLsbD 0, b.getLsbD 1, b.getLsbD 2, b.getLsbD 3, b.getLsbD 4, b.getLsbD 5, b.getLsbD 6,
         b.getLsbD 7, true])
  ∧ (∀ chars : List (Nat × Byte),
       LineReceiver.waiting.commands (chars.flatMap fun c => List.replicate c.1 true ++ characterLevels c.2)
         = chars.map fun c => .goodCharacter c.2)
  ∧ (∀ (bits : List Bool) (low : Nat) (rest : List Bool), bits.length = 8 →
       LineReceiver.waiting.commands (false :: (bits ++ false :: (List.replicate low false ++ true :: rest)))
         = .framingError :: LineReceiver.waiting.commands rest)
  ∧ ∀ s : State,
       (∀ frame effect, s.resetn = true → s.lp.transmitter = .send frame effect → s.ltxdLevels = frame.flatMap characterLevels)
       ∧ (s.resetn = false ∨ (∀ frame effect, s.lp.transmitter ≠ .send frame effect) → s.ltxdLevels = [true])

/-- Encoding: the frame built for a request, heard from HUNT, is accepted as that request, with every xno and payload; the
transmitter enters WAIT for an addressed one. -/
def Obligations.LineFrameAccepted : Prop :=
  ∀ (s : State) (kind : RequestKind) (xno : Xno) (payload : List Byte), s.resetn = true → s.lp.assembler = .hunt →
    payload.length ≤ 244 →
    (s.lp.transmitter = .idle → s.lp.answers = true →
      exec (.lineFrame (frameOf s.lp.station kind.code xno payload)) s = .next { s with lp := { s.lp with
        accepted := s.lp.accepted ++ [⟨false, kind, xno, payload⟩], transmitter := .wait none } })
    ∧ (s.lp.hears = true →
      exec (.lineFrame (frameOf 31 RequestKind.push.code xno payload)) s = .next { s with lp := { s.lp with
        accepted := s.lp.accepted ++ [⟨true, .push, xno, payload⟩] } })

/-- A whole frame heard from HUNT: with a wrong CRC it is discarded and counted once, whatever its station; a good frame for another
station, of a kind that is no request, or a broadcast that is no PUSH, is ignored. -/
def Obligations.LineFrameDropped : Prop :=
  ∀ (s : State) (station control : Byte) (payload crc : List Byte), s.resetn = true → s.lp.assembler = .hunt → s.lp.hears = true →
    payload.length ≤ 244 → crc.length = 2 →
    (crc ≠ beBytes 2 (crc16 (station :: control :: BitVec.ofNat 8 payload.length :: payload)).toNat →
      exec (.lineFrame (0xA5 :: station :: control :: BitVec.ofNat 8 payload.length :: (payload ++ crc))) s
        = .next { s with mu := s.mu.counts .lineCrc 1 })
    ∧ (crc = beBytes 2 (crc16 (station :: control :: BitVec.ofNat 8 payload.length :: payload)).toNat →
        (station ≠ 31 ∧ (station ≠ s.lp.station ∨ s.lp.answers = false)
          ∨ requestKind ((control >>> 4).setWidth 4) = none
          ∨ station = 31 ∧ requestKind ((control >>> 4).setWidth 4) ≠ some .push) →
      exec (.lineFrame (0xA5 :: station :: control :: BitVec.ofNat 8 payload.length :: (payload ++ crc))) s = .next s)

/-- TURNAROUND: the reply goes out whole under the station in force; a frame begun in WAIT is abandoned and counted.
REPLY_END: the transmitter is IDLE; the end of a station write's DONE brings the station setting into force; the end of a
RESTART's DONE restarts every block (logs 5 and 26). -/
def Obligations.RepliesGoOut : Prop :=
  (∀ (s : State) (h : HandedReply), s.resetn = true → s.lp.transmitter = .wait (some h) →
     (s.lp.assembler = .hunt → exec .turnaround s = .next { s with lp := { s.lp with
         transmitter := .send (frameOf s.lp.station h.reply.kind.code h.reply.xno h.reply.payload) h.effect } })
     ∧ (∀ bytes, s.lp.assembler = .inFrame bytes → exec .turnaround s = .next { s with
         lp := { s.lp with
           assembler := .hunt
           transmitter := .send (frameOf s.lp.station h.reply.kind.code h.reply.xno h.reply.payload) h.effect }
         mu := s.mu.counts .lineCrc 1 }))
  ∧ (∀ (s : State) (frame : List Byte), s.resetn = true →
       (s.lp.transmitter = .send frame .nothing → exec .replyEnd s = .next { s with lp := { s.lp with transmitter := .idle } })
       ∧ (s.lp.transmitter = .send frame .station →
           exec .replyEnd s = .next { s with lp := { s.lp with transmitter := .idle, station := s.mu.settings.station } })
       ∧ (s.lp.transmitter = .send frame .restart → exec .replyEnd s = .next { s with
           lp := { s.lp with transmitter := .idle, lastReply := none }
           xu := ⟨Vector.replicate 8 Exchange.free, []⟩
           pq := ⟨[]⟩
           ia := { s.ia with orderList := [] }
           cu := ⟨mapIx (fun _ t => if t.state = .busy then
             { t with state := .cooling, owner := none, timer := .coolDown (Config.ms t.timeout) } else t) s.cu.tags⟩
           ru := ⟨mapIx (fun _ b => if b.valid then Buffer.invalid else b) s.ru.buffers, []⟩
           nu := { s.nu with queue := [], overrun := false }
           mu := s.mu.counts .pushBytesCut ((s.pq.pushes.map fun p => p.payload.length - p.issued).sum)
           reports := { s.reports with pieceResults := [] } }))

/-! ### Requests: the Last Reply Record, the form, resolution -/

/-- A READ, WRITE or PUSH whose signature the record holds is answered with the stored reply, and nothing else changes.
A request of the wrong form is answered FAULT MALFORMED with its payload length, counted, and stored unless it is a POLL; a
broadcast PUSH of the wrong form is only counted, and one to unit 0 is dropped. -/
def Obligations.RepeatsAndMalformedAreAnswered : Prop :=
  (∀ (s : State) (l : LinePort) (r : LineRequest) (reply : LineReply), s.Takes r l → r.broadcast = false → r.kind ≠ .poll →
     s.lp.lastReply = some (r.signature, reply) →
     exec r.command s = .next { s with lp := { l with transmitter := .wait (some ⟨reply, .nothing⟩) } })
  ∧ (∀ (s : State) (l : LinePort) (r : LineRequest), s.Takes r l →
       (r.broadcast = false → s.replayFor r = none → r.wellFormed = false → r.kind ≠ .poll →
         exec r.command s = .next { s with
           lp := l.givesStored r .fault (0x01 :: beBytes 2 r.payload.length) .nothing, mu := s.mu.counts .lineMalformed 1 })
       ∧ (r.broadcast = false → r.wellFormed = false → r.kind = .poll → exec r.command s = .next { s with
           lp := l.gives r .fault (0x01 :: beBytes 2 r.payload.length), mu := s.mu.counts .lineMalformed 1 })
       ∧ (r.broadcast = true → r.kind = .push → r.wellFormed = false →
           exec r.command s = .next { s with lp := l, mu := s.mu.counts .lineMalformed 1 })
       ∧ (r.broadcast = true → r.kind = .push → r.wellFormed = true → r.unit = 0 → exec r.command s = .next { s with lp := l }))

/-- Resolution answers with the first of its five checks that fails, with its detail, and otherwise with the window's fields and the
fabric address. A window covers a unit when it is valid and first unit ≤ unit ≤ last unit; R, W and P admit READ, WRITE and PUSH, and make
up the rights byte of the detail. -/
def Obligations.ResolutionChecksInOrder : Prop :=
  (∀ (s : State) (kind : WorkKind) (unit : Byte) (offset length : Nat),
    ((∀ j : WinIx, (look s.tu.windows j).covers unit = false) →
      s.resolve kind unit offset length = .error (.noWindow, BitVec.ofNat 16 unit.toNat))
    ∧ ∀ i : WinIx, (look s.tu.windows i).covers unit = true → (∀ j : WinIx, j < i → (look s.tu.windows j).covers unit = false) →
      s.resolve kind unit offset length =
        if (look s.tu.windows i).admits kind = false then
          .error (.access, BitVec.ofNat 16 (i.val * 256 + (look s.tu.windows i).rights.toNat))
        else if (look s.tu.windows i).span.toNat < offset + length then .error (.range, BitVec.ofNat 16 (i.val * 256))
        else if (look s.tu.nodes (look s.tu.windows i).slot).state = .quiet then
          .error (.nodeQuiet, BitVec.ofNat 16 (look s.tu.windows i).slot.val)
        else if s.tp.link = .failed then .error (.link, 0x0005)
        else .ok {
          window := i
          slot := (look s.tu.windows i).slot
          addr := BitVec.ofNat 40 ((look s.tu.windows i).base.toNat
            + (unit.toNat - (look s.tu.windows i).firstUnit.toNat) * 2 ^ (look s.tu.windows i).stride.toNat + offset)
          relaxed := (look s.tu.windows i).relaxed
          retain := (look s.tu.windows i).retain
          depth := (look s.tu.windows i).depth.toNat
          room := (look s.tu.windows i).span.toNat - offset })
  ∧ (∀ (w : Window) (unit : Byte), w.covers unit = true ↔
      w.valid = true ∧ w.firstUnit.toNat ≤ unit.toNat ∧ unit.toNat ≤ w.lastUnit.toNat)
  ∧ ∀ w : Window, w.admits .read = w.rightR ∧ w.admits .write = w.rightW ∧ w.admits .push = w.rightP
    ∧ w.rights = BitVec.ofNat 8 ((if w.rightR then 1 else 0) + (if w.rightW then 2 else 0) + (if w.rightP then 4 else 0))

/-- A new READ, WRITE or PUSH that does not resolve is answered with its FAULT, stored, and leaves no other trace; a PUSH to unit 0 is
answered FAULT ACCESS 0.
With every record live, a new READ that misses retention or a new WRITE is answered BUSY 1, counted, not stored; nothing else
changes. -/
def Obligations.RefusedOrBusyLeavesNoTrace : Prop :=
  (∀ (s : State) (l : LinePort) (r : LineRequest) (code : FaultCode) (detail : BitVec 16), s.TakesNew r l →
     (r.unit ≠ 0 → (r.kind = .push ∨ ∀ i, (s.record i).state = .free ∨ (s.record i).xno ≠ r.xno) →
       (r.kind = .read ∧ s.resolve .read r.unit r.offset r.readLength = .error (code, detail)
         ∨ r.kind = .write ∧ s.resolve .write r.unit r.offset r.data.length = .error (code, detail)
         ∨ r.kind = .push ∧ s.resolve .push r.unit r.offset r.data.length = .error (code, detail)) →
       exec r.command s = .next { s with lp := l.givesStored r .fault (code.code :: beBytes 2 detail.toNat) .nothing })
     ∧ (r.unit = 0 → r.kind = .push →
         exec r.command s = .next { s with lp := l.givesStored r .fault [0x03, 0, 0] .nothing }))
  ∧ (∀ (s : State) (l : LinePort) (r : LineRequest) (res : Resolution), s.TakesNew r l → r.unit ≠ 0 →
       (∀ j, (s.record j).live = true ∧ (s.record j).xno ≠ r.xno) → s.xu.answerOrder = [] →
       (r.kind = .read ∧ s.resolve .read r.unit r.offset r.readLength = .ok res
           ∧ (res.retain = true → s.ru.hit res.window res.addr r.readLength = none)
         ∨ r.kind = .write ∧ s.resolve .write r.unit r.offset r.data.length = .ok res) →
       exec r.command s = .next { s with lp := l.gives r .busy [1], mu := s.mu.counts .busySent 1 })

/-! ### Exchanges -/

/-- A new READ that misses retention is accepted into the lowest FREE record, or the oldest ANSWERED one: QUEUED, with its fetch
length, in the Order List; HELD 0; and IA judges.
A new WRITE is accepted in the same way; it invalidates the valid buffers of its node slot, and voids the fills of the QUEUED and ACTIVE
READs of that slot, whose range, a READ's to its issue length, shares an address with the write's. -/
def Obligations.ExchangesAreAccepted : Prop :=
  (∀ (s : State) (l : LinePort) (r : LineRequest) (res : Resolution) (i : RecIx), s.TakesNew r l → r.kind = .read → r.unit ≠ 0 →
     (∀ j, (s.record j).state = .free ∨ (s.record j).xno ≠ r.xno) →
     s.resolve .read r.unit r.offset r.readLength = .ok res →
     (res.retain = true → s.ru.hit res.window res.addr r.readLength = none) →
     ((s.record i).state = .free ∧ (∀ j, j < i → (s.record j).state ≠ .free)
       ∨ (∀ j, (s.record j).state ≠ .free) ∧ s.xu.answerOrder.head? = some i) →
     exec r.command s = .next (State.arbitrate { s with
       lp := l.gives r .held [0]
       ia := { s.ia with orderList := s.ia.orderList ++ [.exchange i] }
       xu := {
         answerOrder := s.xu.answerOrder.filter (· != i)
         records := put s.xu.records i {
           state := .queued, xno := r.xno, kind := .read, signature := r.signature
           window := res.window, relaxed := res.relaxed, slot := res.slot, addr := res.addr
           requestedLength := r.readLength
           issueLength := if res.retain then min (min (r.readLength + 16 * res.depth) 256) res.room else r.readLength
           payload := []
           readBuffer := List.replicate
             (if res.retain then min (min (r.readLength + 16 * res.depth) 256) res.room else r.readLength) 0
           retain := if res.retain then some true else none
           nextOffset := 0, piecesIssued := 0, outstanding := 0, abandoned := false, result := .pending, holdTimer := none
           leftUp := false } } }))
  ∧ (∀ (s : State) (l : LinePort) (r : LineRequest) (res : Resolution) (i : RecIx), s.TakesNew r l → r.kind = .write → r.unit ≠ 0 →
       (∀ j, (s.record j).state = .free ∨ (s.record j).xno ≠ r.xno) →
       s.resolve .write r.unit r.offset r.data.length = .ok res →
       ((s.record i).state = .free ∧ (∀ j, j < i → (s.record j).state ≠ .free)
         ∨ (∀ j, (s.record j).state ≠ .free) ∧ s.xu.answerOrder.head? = some i) →
       exec r.command s = .next (State.arbitrate { s with
         lp := l.gives r .held [0]
         ia := { s.ia with orderList := s.ia.orderList ++ [.exchange i] }
         ru := s.ru.invalidate fun b => b.overlaps res.slot res.addr r.data.length
         xu := ExchangeUnit.void (fun e => e.fetchOverlaps res.slot res.addr r.data.length) {
           answerOrder := s.xu.answerOrder.filter (· != i)
           records := put s.xu.records i {
             state := .queued, xno := r.xno, kind := .write, signature := r.signature
             window := res.window, relaxed := res.relaxed, slot := res.slot, addr := res.addr
             requestedLength := r.data.length, issueLength := r.data.length
             payload := r.data, readBuffer := [], retain := none
             nextOffset := 0, piecesIssued := 0, outstanding := 0, abandoned := false, result := .pending, holdTimer := none
             leftUp := false } } }))
  ∧ (∀ (b : Buffer) (slot : SlotIx) (addr : FabricAddr) (length : Nat), b.overlaps slot addr length = true ↔
       b.slot = slot ∧ ∃ a : Nat, b.addr.toNat ≤ a ∧ a < b.addr.toNat + b.data.length
         ∧ addr.toNat ≤ a ∧ a < addr.toNat + length)
  ∧ (∀ (e : Exchange) (slot : SlotIx) (addr : FabricAddr) (length : Nat), e.fetchOverlaps slot addr length = true ↔
       e.slot = slot ∧ ∃ a : Nat, e.addr.toNat ≤ a ∧ a < e.addr.toNat + e.issueLength
         ∧ addr.toNat ≤ a ∧ a < addr.toNat + length)
  ∧ (∀ (u : RetentionUnit) (p : Buffer → Bool), u.invalidate p = {
       buffers := mapIx (fun _ b => if b.valid = true ∧ p b = true then Buffer.invalid else b) u.buffers
       useOrder := u.useOrder.filter fun i => !p (look u.buffers i) })
  ∧ ∀ (u : ExchangeUnit) (p : Exchange → Bool), u.void p = { u with
       records := mapIx (fun _ e =>
         if (e.state = .queued ∨ e.state = .active) ∧ e.kind = .read ∧ e.retain = some true ∧ p e = true then
           { e with retain := some false }
         else e) u.records }

/-- A new READ contained in valid buffers of its window is answered DATA, stored, from the one of highest use rank, whose timer
restarts and which becomes the most recently used.
A buffer contains a request when it is valid, of the same window, and the request's range lies within its own. -/
def Obligations.RetentionHitAnswers : Prop :=
  (∀ (s : State) (l : LinePort) (r : LineRequest) (res : Resolution) (older newer : List BufIx) (b : BufIx),
    s.TakesNew r l → r.kind = .read → r.unit ≠ 0 → (∀ j, (s.record j).state = .free ∨ (s.record j).xno ≠ r.xno) →
    s.resolve .read r.unit r.offset r.readLength = .ok res → res.retain = true →
    s.ru.useOrder = older ++ b :: newer → b ∉ older → b ∉ newer →
    (look s.ru.buffers b).contains res.window res.addr r.readLength = true →
    (∀ c ∈ newer, (look s.ru.buffers c).contains res.window res.addr r.readLength = false) →
    exec r.command s = .next { s with
      lp := l.givesStored r .data
        (slice (look s.ru.buffers b).data (res.addr.toNat - (look s.ru.buffers b).addr.toNat) r.readLength) .nothing
      ru := ⟨put s.ru.buffers b { look s.ru.buffers b with timer := some (Config.ms s.mu.settings.retention) }, older ++ newer ++ [b]⟩ })
  ∧ ∀ (b : Buffer) (window : WinIx) (addr : FabricAddr) (length : Nat), b.contains window addr length = true ↔
    b.valid = true ∧ b.window = window ∧ b.addr.toNat ≤ addr.toNat ∧ addr.toNat + length ≤ b.addr.toNat + b.data.length

/-- A request whose xno a live exchange holds: HELD 0 while QUEUED, HELD 1 while ACTIVE, FAULT XNO_CLASH with state and kind codes
when the signatures differ; the exchange is not changed.
A new request with the xno of an ANSWERED exchange but another signature frees that record, even when a FAULT answers the request at
once; the request is then handled as on the state with that record FREE: accepted, or answered from a retention buffer. -/
def Obligations.HeldXnoAnswers : Prop :=
  (∀ (s : State) (l : LinePort) (r : LineRequest) (i : RecIx), s.TakesNew r l → r.unit ≠ 0 → r.kind = .read ∨ r.kind = .write →
     (s.record i).xno = r.xno → (∀ j, j < i → (s.record j).live = false ∨ (s.record j).xno ≠ r.xno) →
     ((s.record i).state = .queued → (s.record i).signature = r.signature →
       exec r.command s = .next { s with lp := l.gives r .held [0] })
     ∧ ((s.record i).state = .active → (s.record i).signature = r.signature →
       exec r.command s = .next { s with lp := l.gives r .held [1] })
     ∧ ((s.record i).live = true → (s.record i).signature ≠ r.signature →
       exec r.command s = .next { s with
         lp := l.givesStored r .fault
           [0x07, BitVec.ofNat 8 (s.record i).state.code, BitVec.ofNat 8 (s.record i).kind.code] .nothing }))
  ∧ (∀ (s : State) (l : LinePort) (r : LineRequest) (i : RecIx) (e : FaultCode × BitVec 16), s.TakesNew r l → r.unit ≠ 0 →
       (s.record i).state = .answered → (s.record i).xno = r.xno → (s.record i).signature ≠ r.signature →
       (∀ j, j ≠ i → (s.record j).state = .free ∨ (s.record j).xno ≠ r.xno) →
       (r.kind = .read ∧ s.resolve .read r.unit r.offset r.readLength = .error e
         ∨ r.kind = .write ∧ s.resolve .write r.unit r.offset r.data.length = .error e) →
       exec r.command s = .next { s with
         lp := l.givesStored r .fault (e.1.code :: beBytes 2 e.2.toNat) .nothing
         xu := ⟨put s.xu.records i Exchange.free, s.xu.answerOrder.filter (· != i)⟩ })
  ∧ ∀ (s t : State) (l : LinePort) (r : LineRequest) (i : RecIx), s.TakesNew r l → r.unit ≠ 0 → r.kind = .read ∨ r.kind = .write →
       (s.record i).state = .answered → (s.record i).xno = r.xno → (s.record i).signature ≠ r.signature →
       (∀ j, j ≠ i → (s.record j).state = .free ∨ (s.record j).xno ≠ r.xno) →
       t = { s with xu := ⟨put s.xu.records i Exchange.free, s.xu.answerOrder.filter (· != i)⟩ } →
       exec r.command s = exec r.command t ∧ t.TakesNew r l
         ∧ ∀ j, (t.record j).state = .free ∨ (t.record j).xno ≠ r.xno

/-- A repeat that finds its exchange READY collects the result, not stored: the record is ANSWERED, newest, its hold timer restarted;
a repeat of an ANSWERED exchange gets the result again, the hold timer restarted, the ranks unchanged. -/
def Obligations.ResultIsDelivered : Prop :=
  ∀ (s : State) (l : LinePort) (r : LineRequest) (i : RecIx), s.TakesNew r l → r.unit ≠ 0 → r.kind = .read ∨ r.kind = .write →
    (s.record i).xno = r.xno → (s.record i).signature = r.signature →
    (∀ j, j ≠ i → (s.record j).state = .free ∨ (s.record j).xno ≠ r.xno) →
    ∀ (kind : ReplyKind) (payload : List Byte),
      ((∃ code detail, (s.record i).result = .fault code detail ∧ kind = .fault ∧ payload = code.code :: beBytes 2 detail.toNat)
        ∨ ((s.record i).result = .ok ∧ (s.record i).kind = .read ∧ kind = .data
            ∧ payload = (s.record i).readBuffer.take (s.record i).requestedLength)
        ∨ ((s.record i).result = .ok ∧ (s.record i).kind = .write ∧ kind = .done ∧ payload = [])) →
      ((s.record i).state = .ready → i ∉ s.xu.answerOrder →
        exec r.command s = .next { s with
          lp := l.gives r kind payload
          xu := ⟨put s.xu.records i { s.record i with state := .answered, holdTimer := some (Config.ms s.mu.settings.hold) },
            s.xu.answerOrder ++ [i]⟩ })
      ∧ ((s.record i).state = .answered →
        exec r.command s = .next { s with
          lp := l.gives r kind payload
          xu := ⟨put s.xu.records i { s.record i with holdTimer := some (Config.ms s.mu.settings.hold) }, s.xu.answerOrder⟩ })

/-! ### Pushes and notices -/

/-- A PUSH that resolves and fits is queued at the tail, ordered at the tail, invalidates and voids what it overlaps, and is answered
DONE, stored, if addressed; then IA judges. One that does not fit: BUSY 2, counted, or the broadcast is dropped and counted. A broadcast
that does not resolve is dropped and counted too, whichever check failed.
It overlaps a buffer or a READ fill of its node slot whose range, a READ's to its issue length, shares an address with the push's. The
count of a BUSY 2 moves when the reply is handed over (log 8). -/
def Obligations.PushIsQueued : Prop :=
  (∀ (s : State) (l : LinePort) (r : LineRequest) (res : Resolution), s.Takes r l → r.kind = .push → r.wellFormed = true → r.unit ≠ 0 →
    s.resolve .push r.unit r.offset r.data.length = .ok res →
    (s.pq.pushes.length ≤ 15 → s.pq.bytesHeld + r.data.length ≤ 1024 →
      ∀ line : LinePort, (r.broadcast = true ∧ line = l
          ∨ r.broadcast = false ∧ s.replayFor r = none ∧ line = l.givesStored r .done [] .nothing) →
        exec r.command s = .next (State.arbitrate { s with
          lp := line
          pq := ⟨s.pq.pushes ++ [⟨res.window, res.slot, res.addr, r.data, 0, r.broadcast⟩]⟩
          ia := { s.ia with orderList := s.ia.orderList ++ [.push] }
          ru := s.ru.invalidate fun b => b.overlaps res.slot res.addr r.data.length
          xu := s.xu.void fun e => e.fetchOverlaps res.slot res.addr r.data.length }))
    ∧ (16 ≤ s.pq.pushes.length ∨ 1024 < s.pq.bytesHeld + r.data.length →
        (r.broadcast = false → s.replayFor r = none →
          exec r.command s = .next { s with lp := l.gives r .busy [2], mu := s.mu.counts .busySent 1 })
        ∧ (r.broadcast = true → exec r.command s = .next { s with lp := l, mu := s.mu.counts .broadcastDropped 1 })))
  ∧ (∀ (s : State) (l : LinePort) (r : LineRequest) (e : FaultCode × BitVec 16), s.Takes r l → r.broadcast = true → r.kind = .push →
    r.wellFormed = true → r.unit ≠ 0 → s.resolve .push r.unit r.offset r.data.length = .error e →
    exec r.command s = .next { s with lp := l, mu := s.mu.counts .broadcastDropped 1 })
  ∧ (∀ (b : Buffer) (slot : SlotIx) (addr : FabricAddr) (length : Nat), b.overlaps slot addr length = true ↔
       b.slot = slot ∧ ∃ a : Nat, b.addr.toNat ≤ a ∧ a < b.addr.toNat + b.data.length
         ∧ addr.toNat ≤ a ∧ a < addr.toNat + length)
  ∧ ∀ (e : Exchange) (slot : SlotIx) (addr : FabricAddr) (length : Nat), e.fetchOverlaps slot addr length = true ↔
       e.slot = slot ∧ ∃ a : Nat, e.addr.toNat ≤ a ∧ a < e.addr.toNat + e.issueLength
         ∧ addr.toNat ≤ a ∧ a < addr.toNat + length

/-- POLL: the acknowledgement removes a sent head of that serial, and clears the overrun flag if the head had reported it; then EMPTY,
or NOTICE with the head, which is marked sent, and overrun reported when the flag is set. -/
def Obligations.PollCollects : Prop :=
  ∀ (s : State) (l : LinePort) (xno : Xno) (flags serial : Byte) (queue : List Notice) (overrun : Bool),
    s.Takes ⟨false, .poll, xno, [flags, serial]⟩ l →
    ((∃ h, s.nu.queue = h :: queue ∧ flags.getLsbD 0 = true ∧ h.sent = true ∧ h.serial = serial
        ∧ overrun = (s.nu.overrun && !h.overrunReported))
      ∨ ((∀ h ∈ s.nu.queue.head?, ¬(flags.getLsbD 0 = true ∧ h.sent = true ∧ h.serial = serial))
          ∧ queue = s.nu.queue ∧ overrun = s.nu.overrun)) →
    (queue = [] → exec (.poll xno [flags, serial]) s = .next { s with
      lp := l.gives ⟨false, .poll, xno, [flags, serial]⟩ .empty []
      nu := { s.nu with queue := [], overrun := overrun } })
    ∧ ∀ h rest, queue = h :: rest → exec (.poll xno [flags, serial]) s = .next { s with
      lp := l.gives ⟨false, .poll, xno, [flags, serial]⟩ .notice (h.serial :: (if overrun then 1 else 0)
        :: (beBytes 2 h.source.toNat ++ beBytes 2 h.code.toNat ++ beBytes 4 h.arg.toNat ++ [BitVec.ofNat 8 h.count]))
      nu := { s.nu with
        queue := { h with sent := true, overrunReported := h.overrunReported || overrun } :: rest
        overrun := overrun } }

/-- An arrival at NU, an NTC for the gateway or a self-notice offered: folded into the unsent entry of its key, else appended with the
next serial, else dropped, counted, with the overrun flag set. -/
def Obligations.NoticeArrives : Prop :=
  ∀ (s : State) (source : NodeId) (code : BitVec 16) (arg : BitVec 32) (nu : NoticeUnit) (mu : ManagementUnit),
    ((∃ before n after, s.nu.queue = before ++ n :: after ∧ n.sent = false ∧ n.key = (source, code, arg)
        ∧ (∀ m ∈ before, m.sent = true ∨ m.key ≠ (source, code, arg))
        ∧ nu = { s.nu with queue := before ++ { n with count := min 255 (n.count + 1) } :: after } ∧ mu = s.mu)
      ∨ ((∀ m ∈ s.nu.queue, m.sent = true ∨ m.key ≠ (source, code, arg)) ∧ s.nu.queue.length < 32
        ∧ nu = { s.nu with queue := s.nu.queue ++ [⟨s.nu.serial, source, code, arg, 1, false, false⟩], serial := s.nu.serial + 1 }
        ∧ mu = s.mu)
      ∨ ((∀ m ∈ s.nu.queue, m.sent = true ∨ m.key ≠ (source, code, arg)) ∧ 32 ≤ s.nu.queue.length
        ∧ nu = { s.nu with overrun := true } ∧ mu = s.mu.counts .noticesDropped 1)) →
    s.resetn = true →
    (∀ dest : NodeId, dest = s.tp.nodeId → dest ≠ 0 →
      (s.tp.link = .negotiate → exec (.ntc source dest code arg) s = .next { s with nu := nu, mu := mu })
      ∧ (s.tp.link = .settle ∨ s.tp.link = .up → exec (.ntc source dest code arg) s = .next { s with
          nu := nu, mu := mu, tp := { s.tp with linkLoss := some (Config.ms s.mu.settings.linkLoss) } }))
    ∧ ∀ (block : NoticeBlock) (before after : List Offer), s.reports.offers = before ++ ⟨block, source, code, arg⟩ :: after →
      (∀ o ∈ before, o.block ≠ block) →
      exec (.selfNotice block) s = .next { s with nu := nu, mu := mu, reports := { s.reports with offers := before ++ after } }

/-! ### The management space from the line -/

/-- A READ of unit 0 is answered DATA with the bytes covered, or FAULT with the failing check, stored; nothing else changes. A read of any
unmapped byte is RANGE, one of the command region ACCESS; part of what can be read reads as that part, and adjacent reads join. Identity,
settings, status and counters, the window and node images, with the count of a QUIET slot as of a LIVE one, and the views of exchanges
and tags read as the spec lays them out, an empty slot, a FREE record or a FREE tag as zeros; the spare bits of the in-use byte and an
absent owner's number read as zero (log 29). -/
def Obligations.UnitZeroRead : Prop :=
  (∀ (s : State) (l : LinePort) (r : LineRequest), s.TakesNew r l → r.kind = .read → r.unit = 0 →
    (∀ bytes, s.readSpace r.offset r.readLength = .ok bytes →
      exec r.command s = .next { s with lp := l.givesStored r .data bytes .nothing })
    ∧ ∀ code detail, s.readSpace r.offset r.readLength = .error (code, detail) →
      exec r.command s = .next { s with lp := l.givesStored r .fault (code.code :: beBytes 2 detail.toNat) .nothing })
  ∧ (∀ (s : State) (offset length : Nat), 1 ≤ length →
      ((∃ k, k < length ∧ ∀ region ∈ [(0x000000, 14), (0x000100, 7), (0x000200, 19), (0x000300, 26), (0x000400, 2), (0x001000, 512),
          (0x002000, 512), (0x003000, 128), (0x004000, 256)], offset + k < region.1 ∨ region.1 + region.2 ≤ offset + k) →
        s.readSpace offset length = .error (.range, 0))
      ∧ (0x000400 ≤ offset → offset + length ≤ 0x000402 → s.readSpace offset length = .error (.access, 0x0004)))
  ∧ (∀ (s : State) (offset length : Nat) (bytes : List Byte), s.readSpace offset length = .ok bytes →
      (∀ k n, 1 ≤ n → k + n ≤ length → s.readSpace (offset + k) n = .ok (slice bytes k n))
      ∧ ∀ (more : Nat) (rest : List Byte), 1 ≤ length → 1 ≤ more → s.readSpace (offset + length) more = .ok rest →
        s.readSpace offset (length + more) = .ok (bytes ++ rest))
  ∧ ∀ s : State,
    s.readSpace 0x000000 14 = .ok [0x0E, 0x7A, 0x04, 0x08, 0x01, 8, 16, 32, 32, 4, 32, 16, 0x04, 0x00]
    ∧ s.readSpace 0x000100 7 = .ok [s.mu.settings.hold, s.mu.settings.retention, s.mu.settings.segmentHold,
        s.mu.settings.linkLoss, s.mu.settings.station, s.mu.settings.permit, s.mu.settings.mask]
    ∧ s.readSpace 0x000200 19 = .ok (
        [BitVec.ofNat 8 s.tp.link.code, s.lp.lrate.setWidth 8] ++ beBytes 2 s.tp.nodeId.toNat ++ [s.tp.rateClass]
        ++ beBytes 2 s.tp.pieceMax.toNat
        ++ [s.tp.requestLimit - s.tp.requestConsumed, s.tp.pushLimit - s.tp.pushConsumed,
          BitVec.ofNat 8 (countIx 8 fun i => (s.record i).state == .free),
          BitVec.ofNat 8 (countIx 8 fun i => (s.record i).state == .queued),
          BitVec.ofNat 8 (countIx 8 fun i => (s.record i).state == .active),
          BitVec.ofNat 8 (countIx 8 fun i => (s.record i).state == .ready),
          BitVec.ofNat 8 (countIx 8 fun i => (s.record i).state == .answered),
          BitVec.ofNat 8 s.pq.pushes.length]
        ++ beBytes 2 s.pq.bytesHeld ++ [BitVec.ofNat 8 s.nu.queue.length, if s.nu.overrun then 1 else 0])
    ∧ (∀ c : Counter, s.readSpace (0x000300 + 2 * c.ix.val) 2 = .ok (beBytes 2 (look s.mu.counters c.ix).toNat))
    ∧ (∀ (i : WinIx) (w : Window), w = look s.tu.windows i → s.readSpace (0x001000 + 32 * i.val) 32 = .ok (
        if w.valid = false then List.replicate 32 0 else
          [BitVec.ofNat 8 (1 + (if w.retain then 2 else 0) + (if w.relaxed then 4 else 0)),
            BitVec.ofNat 8 ((if w.rightR then 1 else 0) + (if w.rightW then 2 else 0) + (if w.rightP then 4 else 0)),
            w.firstUnit, w.lastUnit, BitVec.ofNat 8 w.slot.val, w.stride, w.depth, 0,
            BitVec.ofNat 8 (w.base.toNat / 2 ^ 32), BitVec.ofNat 8 (w.base.toNat / 2 ^ 24), BitVec.ofNat 8 (w.base.toNat / 2 ^ 16),
            BitVec.ofNat 8 (w.base.toNat / 2 ^ 8), BitVec.ofNat 8 w.base.toNat,
            BitVec.ofNat 8 (w.span.toNat / 2 ^ 24), BitVec.ofNat 8 (w.span.toNat / 2 ^ 16), BitVec.ofNat 8 (w.span.toNat / 2 ^ 8),
            BitVec.ofNat 8 w.span.toNat]
          ++ List.replicate 15 0))
    ∧ (∀ (i : SlotIx) (n : Node), n = look s.tu.nodes i → s.readSpace (0x002000 + 16 * i.val) 16 = .ok (
        if n.state = .unused then List.replicate 16 0 else
          [if n.state = .quiet then 2 else 1, if s.inUse i then 1 else 0,
            BitVec.ofNat 8 (n.nodeId.toNat / 2 ^ 8), BitVec.ofNat 8 n.nodeId.toNat,
            BitVec.ofNat 8 (n.pieceSize.toNat / 2 ^ 8), BitVec.ofNat 8 n.pieceSize.toNat,
            n.limit, n.timeout, n.threshold, BitVec.ofNat 8 n.count,
            BitVec.ofNat 8 (countIx 32 fun t => (s.tag t).state == .busy && (s.tag t).slot == i), 0, 0, 0, 0, 0]))
    ∧ (∀ (i : RecIx) (e : Exchange), e = s.record i → s.readSpace (0x003000 + 16 * i.val) 16 = .ok (
        if e.state = .free then List.replicate 16 0 else
          [BitVec.ofNat 8 ((match e.state with | .free => 0 | .queued => 1 | .active => 2 | .ready => 3 | .answered => 4) * 32
              + e.slot.val),
            BitVec.ofNat 8 ((match e.kind with | .read => 1 | .write => 2) * 16 + e.xno.toNat),
            BitVec.ofNat 8 (e.window.val + (if e.relaxed then 16 else 0) + (if e.retain = none then 0 else 32)
              + (if e.retain = some true then 64 else 0) + (if e.abandoned then 128 else 0)),
            BitVec.ofNat 8 (e.addr.toNat / 2 ^ 32), BitVec.ofNat 8 (e.addr.toNat / 2 ^ 24), BitVec.ofNat 8 (e.addr.toNat / 2 ^ 16),
            BitVec.ofNat 8 (e.addr.toNat / 2 ^ 8), BitVec.ofNat 8 e.addr.toNat,
            BitVec.ofNat 8 e.requestedLength, BitVec.ofNat 8 (e.issueLength - 1),
            BitVec.ofNat 8 (e.nextOffset / 2 ^ 8), BitVec.ofNat 8 e.nextOffset,
            BitVec.ofNat 8 ((match e.result with | .pending => 0 | .ok => 1 | .fault _ _ => 2) * 64 + e.piecesIssued * 8
              + e.outstanding)]
          ++ match e.result with
            | .fault code detail => [code.code, BitVec.ofNat 8 (detail.toNat / 2 ^ 8), BitVec.ofNat 8 detail.toNat]
            | _ => [0, 0, 0]))
    ∧ ∀ (i : TagIx) (t : Tag), t = s.tag i → s.readSpace (0x004000 + 8 * i.val) 8 = .ok (
        if t.state = .free then List.replicate 8 0 else
          [BitVec.ofNat 8 ((match t.state with | .free => 0 | .busy => 1 | .cooling => 2) * 64
              + (match t.kind with | .read => 1 | .write => 2) * 16 + match t.owner with | some r => 8 + r.val | none => 0),
            BitVec.ofNat 8 t.slot.val, BitVec.ofNat 8 t.start, BitVec.ofNat 8 (t.length - 1),
            BitVec.ofNat 8 (t.received / 2 ^ 8), BitVec.ofNat 8 t.received, t.timeout, 0])

/-- SETTINGS_WRITE and STATION_WRITE from the line, and MANAGEMENT_WRITE and WRITE of unit 0 to the same bytes: with every byte in
range each field covered takes its byte, DONE is stored, and the station in force waits for the end of that DONE; with a byte out of
range nothing is written and the first field refused is named. The seven fields by place, 0 to 6: hold, retention and segment hold
times 1..255, link loss time 1..15, station 1..30, permit 0 or 1, mask 0..$7F.
A WRITE of unit 0 goes to MU: it is the management row from the line that carries its bytes, whichever that is, in every state. -/
def Obligations.SettingsAreWritten : Prop :=
  (∀ (s : State) (l : LinePort) (xno : Xno) (place : Nat) (data : List Byte) (c : Instr),
    1 ≤ data.length → place + data.length ≤ 7 →
    c = .settingsWrite (.line xno) (BitVec.ofNat 24 (0x100 + place)) data
      ∨ c = .managementWrite (.line xno) (BitVec.ofNat 24 (0x100 + place)) data
      ∨ c = .write xno (unitZeroWrite (BitVec.ofNat 24 (0x100 + place)) data) →
    s.TakesNew (unitZeroRequest xno (BitVec.ofNat 24 (0x100 + place)) data) l →
    ((∀ k, k < data.length → settingOk (place + k) (byteAt data k) = true) →
      exec c s = .next { s with
        lp := l.givesStored (unitZeroRequest xno (BitVec.ofNat 24 (0x100 + place)) data) .done []
          (if place ≤ 4 ∧ 4 < place + data.length then .station else .nothing)
        mu := { s.mu with settings := s.mu.settings.setRun place data } })
    ∧ ∀ k, k < data.length → settingOk (place + k) (byteAt data k) = false →
      (∀ j, j < k → settingOk (place + j) (byteAt data j) = true) →
      exec c s = .next { s with
        lp := l.givesStored (unitZeroRequest xno (BitVec.ofNat 24 (0x100 + place)) data) .fault
          [0x0B, BitVec.ofNat 8 (place + k), 7] .nothing })
  ∧ (∀ (place : Nat) (b : Byte), settingOk place b = true ↔
      (place = 0 ∨ place = 1 ∨ place = 2) ∧ 1 ≤ b.toNat ∨ place = 3 ∧ 1 ≤ b.toNat ∧ b.toNat ≤ 15
        ∨ place = 4 ∧ 1 ≤ b.toNat ∧ b.toNat ≤ 30 ∨ place = 5 ∧ b.toNat ≤ 1 ∨ place = 6 ∧ b.toNat ≤ 0x7F)
  ∧ (∀ (place : Nat) (data : List Byte) (t : Settings), place + data.length ≤ 7 → t.setRun place data = {
      hold := if place = 0 ∧ 0 < data.length then byteAt data 0 else t.hold
      retention := if place ≤ 1 ∧ 1 < place + data.length then byteAt data (1 - place) else t.retention
      segmentHold := if place ≤ 2 ∧ 2 < place + data.length then byteAt data (2 - place) else t.segmentHold
      linkLoss := if place ≤ 3 ∧ 3 < place + data.length then byteAt data (3 - place) else t.linkLoss
      station := if place ≤ 4 ∧ 4 < place + data.length then byteAt data (4 - place) else t.station
      permit := if place ≤ 5 ∧ 5 < place + data.length then byteAt data (5 - place) else t.permit
      mask := if place ≤ 6 ∧ 6 < place + data.length then byteAt data (6 - place) else t.mask })
  ∧ (∀ (high mid low : Byte) (data : List Byte), unitZeroWrite (high ++ mid ++ low) data = 0 :: high :: mid :: low :: data)
  ∧ (∀ (s : State) (xno : Xno),
      (∀ (offset : BitVec 24) (data : List Byte), ∀ c ∈ [Instr.managementWrite (.line xno) offset data,
          .windowImageWrite (.line xno) offset data, .nodeImageWrite (.line xno) offset data, .settingsWrite (.line xno) offset data],
        exec (.write xno (unitZeroWrite offset data)) s = exec c s)
      ∧ (∀ value : Byte, exec (.write xno (unitZeroWrite 0x000104 [value])) s = exec (.stationWrite (.line xno) value) s)
      ∧ ∀ code arg : Byte, ∀ c ∈ [((1 : Byte), Instr.restart (.line xno) arg), (2, .segreset (.line xno) arg),
          (3, .clearCounters (.line xno) arg), (4, .clearQuiet (.line xno) arg), (5, .flushRetention (.line xno) arg),
          (6, .dropNotices (.line xno) arg)],
        code = c.1 → exec (.write xno (unitZeroWrite 0x000400 [code, arg])) s = exec c.2 s)
  ∧ ∀ (s : State) (l : LinePort) (xno : Xno) (value : Byte), s.TakesNew (unitZeroRequest xno 0x000104 [value]) l →
    (1 ≤ value.toNat → value.toNat ≤ 30 → exec (.stationWrite (.line xno) value) s = .next { s with
      lp := l.givesStored (unitZeroRequest xno 0x000104 [value]) .done [] .station
      mu := { s.mu with settings := { s.mu.settings with station := value } } })
    ∧ (value.toNat = 0 ∨ 31 ≤ value.toNat → exec (.stationWrite (.line xno) value) s = .next { s with
      lp := l.givesStored (unitZeroRequest xno 0x000104 [value]) .fault [0x0B, 0x04, 7] .nothing })

/-- A management write from the line that a check refuses is answered with that check's FAULT, stored, and changes nothing else:
unmapped, read-only, not whole images, an unknown command, or refused content. -/
def Obligations.RefusedWriteChangesNothing : Prop :=
  ∀ (s : State) (l : LinePort) (xno : Xno) (offset : BitVec 24) (data : List Byte),
    s.TakesNew (unitZeroRequest xno offset data) l →
    (∀ code detail, s.writeSpace offset.toNat data = .error (code, detail) →
      ∀ c ∈ [Instr.managementWrite (.line xno) offset data, .windowImageWrite (.line xno) offset data,
          .nodeImageWrite (.line xno) offset data, .settingsWrite (.line xno) offset data,
          .write xno (unitZeroWrite offset data)],
        exec c s = .next { s with
          lp := l.givesStored (unitZeroRequest xno offset data) .fault (code.code :: beBytes 2 detail.toNat) .nothing })
    ∧ (regionOf offset.toNat data.length = none → s.writeSpace offset.toNat data = .error (.range, 0))
    ∧ (∀ region, regionOf offset.toNat data.length = some region →
        (region.writable = false → s.writeSpace offset.toNat data = .error (.access, BitVec.ofNat 16 (region.base / 256)))
        ∧ (region = .windows → ¬((offset.toNat - 0x1000) % 32 = 0 ∧ data.length % 32 = 0) →
            s.writeSpace offset.toNat data = .error (.refused, 0x0008))
        ∧ (region = .nodes → ¬((offset.toNat - 0x2000) % 16 = 0 ∧ data.length % 16 = 0) →
            s.writeSpace offset.toNat data = .error (.refused, 0x0008))
        ∧ (region = .command → data.length ≠ 2 → s.writeSpace offset.toNat data = .error (.refused, 0x0008)))
    ∧ ∀ code arg : Byte, offset = 0x000400 → data = [code, arg] → code = 0 ∨ 7 ≤ code.toNat →
        s.writeSpace offset.toNat data = .error (.refused, BitVec.ofNat 16 (code.toNat * 256 + 7))

/-- One window image from the line: refused with the slot and the reason, nothing changed; or the slot takes the image, the window's
buffers are invalidated and its READ fills voided, DONE. One node image in the same way by its node slot; then IA judges.
Several images of one table in one write, from either port: each is checked against the table as the ones before it leave it; all are
applied, or the first refusal refuses the whole write. What the write leaves is what the line's DONE goes out with. -/
def Obligations.ImagesAreLoaded : Prop :=
  (∀ (s : State) (l : LinePort) (xno : Xno) (i : WinIx) (image : List Byte), image.length = 32 →
    s.TakesNew (unitZeroRequest xno (BitVec.ofNat 24 (0x1000 + 32 * i.val)) image) l →
    (∀ reason, s.tu.windowRefusal i image = some reason →
      exec (.windowImageWrite (.line xno) (BitVec.ofNat 24 (0x1000 + 32 * i.val)) image) s = .next { s with
        lp := l.givesStored (unitZeroRequest xno (BitVec.ofNat 24 (0x1000 + 32 * i.val)) image) .fault
          [0x0B, BitVec.ofNat 8 i.val, BitVec.ofNat 8 reason.code] .nothing })
    ∧ (s.tu.windowRefusal i image = none →
      exec (.windowImageWrite (.line xno) (BitVec.ofNat 24 (0x1000 + 32 * i.val)) image) s = .next { s with
        lp := l.givesStored (unitZeroRequest xno (BitVec.ofNat 24 (0x1000 + 32 * i.val)) image) .done [] .nothing
        tu := { s.tu with windows := put s.tu.windows i (if (byteAt image 0).getLsbD 0 then windowOfImage image else Window.empty) }
        ru := s.ru.invalidate fun b => b.window == i
        xu := s.xu.void fun e => e.window == i }))
  ∧ (∀ (s : State) (l : LinePort) (xno : Xno) (i : SlotIx) (image : List Byte), image.length = 16 →
    s.TakesNew (unitZeroRequest xno (BitVec.ofNat 24 (0x2000 + 16 * i.val)) image) l →
    (∀ reason, s.nodeRefusal i image = some reason →
      exec (.nodeImageWrite (.line xno) (BitVec.ofNat 24 (0x2000 + 16 * i.val)) image) s = .next { s with
        lp := l.givesStored (unitZeroRequest xno (BitVec.ofNat 24 (0x2000 + 16 * i.val)) image) .fault
          [0x0B, BitVec.ofNat 8 i.val, BitVec.ofNat 8 reason.code] .nothing })
    ∧ (s.nodeRefusal i image = none → ∃ t,
      exec (.nodeImageWrite (.line xno) (BitVec.ofNat 24 (0x2000 + 16 * i.val)) image) s = .next { t with
        lp := l.givesStored (unitZeroRequest xno (BitVec.ofNat 24 (0x2000 + 16 * i.val)) image) .done [] .nothing }
      ∧ t = State.arbitrate { s with
        lp := l
        tu := { s.tu with nodes := put s.tu.nodes i (if byteAt image 0 = 0 then Node.unused else nodeOfImage image) }
        ru := s.ru.invalidate fun b => b.slot == i
        xu := s.xu.void fun e => e.slot == i }))
  ∧ (∀ (n : Nat) (images : List (List Byte)) (left : Nat → State), images ≠ [] → n + images.length ≤ 16 →
    (∀ image ∈ images, image.length = 32) →
    (∀ (k : Nat) (i : WinIx) (image : List Byte), images[k]? = some image → i.val = n + k → left (k + 1) = { left k with
      tu := { (left k).tu with
        windows := put (left k).tu.windows i (if (byteAt image 0).getLsbD 0 then windowOfImage image else Window.empty) }
      ru := (left k).ru.invalidate fun b => b.window == i
      xu := (left k).xu.void fun e => e.window == i }) →
    ((∀ (k : Nat) (i : WinIx) (image : List Byte), images[k]? = some image → i.val = n + k →
        (left k).tu.windowRefusal i image = none) →
      (left 0).writeSpace (0x1000 + 32 * n) images.flatten = .ok (left images.length, .nothing))
    ∧ ∀ (k : Nat) (i : WinIx) (image : List Byte) (reason : RefusalReason), images[k]? = some image → i.val = n + k →
        (left k).tu.windowRefusal i image = some reason →
        (∀ (k' : Nat) (i' : WinIx) (image' : List Byte), k' < k → images[k']? = some image' → i'.val = n + k' →
          (left k').tu.windowRefusal i' image' = none) →
        (left 0).writeSpace (0x1000 + 32 * n) images.flatten = .error (.refused, BitVec.ofNat 16 (i.val * 256 + reason.code)))
  ∧ (∀ (n : Nat) (images : List (List Byte)) (left : Nat → State), images ≠ [] → n + images.length ≤ 32 →
    (∀ image ∈ images, image.length = 16) →
    (∀ (k : Nat) (i : SlotIx) (image : List Byte), images[k]? = some image → i.val = n + k → left (k + 1) = { left k with
      tu := { (left k).tu with nodes := put (left k).tu.nodes i (if byteAt image 0 = 0 then Node.unused else nodeOfImage image) }
      ru := (left k).ru.invalidate fun b => b.slot == i
      xu := (left k).xu.void fun e => e.slot == i }) →
    ((∀ (k : Nat) (i : SlotIx) (image : List Byte), images[k]? = some image → i.val = n + k →
        (left k).nodeRefusal i image = none) →
      (left 0).writeSpace (0x2000 + 16 * n) images.flatten = .ok ((left images.length).arbitrate, .nothing))
    ∧ ∀ (k : Nat) (i : SlotIx) (image : List Byte) (reason : RefusalReason), images[k]? = some image → i.val = n + k →
        (left k).nodeRefusal i image = some reason →
        (∀ (k' : Nat) (i' : SlotIx) (image' : List Byte), k' < k → images[k']? = some image' → i'.val = n + k' →
          (left k').nodeRefusal i' image' = none) →
        (left 0).writeSpace (0x2000 + 16 * n) images.flatten = .error (.refused, BitVec.ofNat 16 (i.val * 256 + reason.code)))
  ∧ ∀ (s t : State) (l : LinePort) (xno : Xno) (offset : BitVec 24) (data : List Byte),
    s.TakesNew (unitZeroRequest xno offset data) l → State.writeSpace offset.toNat data { s with lp := l } = .ok (t, .nothing) →
    ∀ c ∈ [Instr.managementWrite (.line xno) offset data, .windowImageWrite (.line xno) offset data,
        .nodeImageWrite (.line xno) offset data, .write xno (unitZeroWrite offset data)],
      exec c s = .next { t with lp := l.givesStored (unitZeroRequest xno offset data) .done [] .nothing }

/-- The checks of a window image with valid set, in their order, and those of a node image (an invalid window image is never
refused), with every range that gives BAD_VALUE, in the bytes of the image. A node slot is in use while a valid window, a QUEUED or
ACTIVE exchange, a queued push or a BUSY tag refers to it. -/
def Obligations.ImageChecksInOrder : Prop :=
  (∀ (u : TranslationUnit) (i : WinIx) (image : List Byte),
    ((byteAt image 0).getLsbD 0 = false → u.windowRefusal i image = none)
    ∧ ((byteAt image 0).getLsbD 0 = true → u.windowRefusal i image =
      if byteAt image 2 = 0 then some .unitZero
      else if (byteAt image 3).toNat < (byteAt image 2).toNat then some .badRange
      else if 32 ≤ (byteAt image 4).toNat ∨ (look u.nodes (windowOfImage image).slot).state = .unused then some .nodeSlot
      else if ∃ j : WinIx, j ≠ i ∧ (look u.windows j).valid = true ∧
          (look u.windows j).firstUnit.toNat ≤ (byteAt image 3).toNat ∧ (byteAt image 2).toNat ≤ (look u.windows j).lastUnit.toNat
        then some .overlap
      else if (windowOfImage image).badValue = true ∨ windowImageUndefined image = true then some .badValue
      else none))
  ∧ (∀ (image : List Byte) (first last stride span : Nat), first = (byteAt image 2).toNat → last = (byteAt image 3).toNat →
      stride = (byteAt image 5).toNat → span = beNat (slice image 13 4) →
      ((windowOfImage image).badValue = true ∨ windowImageUndefined image = true ↔
        stride < 8 ∨ 31 < stride ∨ span = 0 ∨ 16777216 < span ∨ first < last ∧ 2 ^ stride < span
        ∨ 0xFFFFFFFFFF < beNat (slice image 8 5) + (last - first) * 2 ^ stride + span - 1
        ∨ byteAt image 6 ≠ 0 ∧ (byteAt image 0).getLsbD 1 = false ∨ 15 < (byteAt image 6).toNat
        ∨ (byteAt image 1).toNat % 8 = 0 ∨ 8 ≤ (byteAt image 0).toNat ∨ 8 ≤ (byteAt image 1).toNat
        ∨ ∃ k, (k = 7 ∨ 17 ≤ k ∧ k ≤ 31) ∧ byteAt image k ≠ 0))
  ∧ (∀ (image : List Byte) (id size : Nat), id = beNat (slice image 2 2) → size = beNat (slice image 4 2) →
      (nodeImageOk image = true ↔
        byteAt image 0 = 1 ∧ 1 ≤ id ∧ id ≤ 4094 ∧ (size = 64 ∨ size = 128 ∨ size = 256 ∨ size = 512)
        ∧ 1 ≤ (byteAt image 6).toNat ∧ (byteAt image 6).toNat ≤ 8 ∧ 1 ≤ (byteAt image 7).toNat ∧ (byteAt image 8).toNat ≤ 15
        ∧ ∀ k, 11 ≤ k → k ≤ 15 → byteAt image k = 0))
  ∧ (∀ (s : State) (n : SlotIx), s.inUse n = true ↔
      (∃ i : WinIx, (look s.tu.windows i).valid = true ∧ (look s.tu.windows i).slot = n)
        ∨ (∃ i : RecIx, ((s.record i).state = .queued ∨ (s.record i).state = .active) ∧ (s.record i).slot = n)
        ∨ (∃ p ∈ s.pq.pushes, p.slot = n)
        ∨ ∃ t : TagIx, (s.tag t).state = .busy ∧ (s.tag t).slot = n)
  ∧ ∀ (s : State) (i : SlotIx) (image : List Byte),
    (byteAt image 0 = 0 → s.nodeRefusal i image = if s.inUse i then some .inUse else none)
    ∧ (byteAt image 0 ≠ 0 → s.nodeRefusal i image =
      if nodeImageOk image = false then some .badValue
      else if s.inUse i = true ∧ (nodeOfImage image).nodeId ≠ (look s.tu.nodes i).nodeId then some .inUse
      else if ∃ j : SlotIx, j ≠ i ∧ (look s.tu.nodes j).state ≠ .unused ∧ (look s.tu.nodes j).nodeId = (nodeOfImage image).nodeId
        then some .dupNode
      else none)

/-- CLEAR_COUNTERS sets all thirteen counters to 0 when MU applies it, from the line or from the trunk, and nothing else changes but
the answer (log 20). -/
def Obligations.ClearCounters : Prop :=
  (∀ (s : State) (l : LinePort) (xno : Xno) (arg : Byte), s.TakesNew (unitZeroRequest xno 0x000400 [3, arg]) l →
    exec (.clearCounters (.line xno) arg) s = .next { s with
      lp := l.givesStored (unitZeroRequest xno 0x000400 [3, arg]) .done [] .nothing
      mu := { s.mu with counters := Vector.replicate 13 0 } })
  ∧ ∀ (s : State) (slot : MgmtIx) (rest : List MgmtIx) (tag : BitVec 5) (source : NodeId) (arg : Byte), s.resetn = true →
    s.tp.unserved = slot :: rest → look s.tp.slots slot = some ⟨tag, source, 0x400, .rqw [3, arg]⟩ → s.mu.settings.permit ≠ 0 →
    exec (.clearCounters .trunk arg) s = .next (State.arbitrate { s with
      tp := { s.tp with unserved := rest }
      mu := { s.mu with counters := Vector.replicate 13 0 }
      ia := { s.ia with cplClaims := s.ia.cplClaims ++ [⟨.cpl source tag 0 0 [], slot, true, false⟩] } })

/-- CLEAR_QUIET: a slot above 31 is refused with BAD_VALUE, an UNUSED slot with NODE_SLOT; a QUIET slot becomes LIVE with count 0, a
LIVE slot's count becomes 0; then IA judges. The answer follows the effect: DONE or the FAULT, stored, on the line; a CPL claim on the
trunk (log 20). -/
def Obligations.ClearQuiet : Prop :=
  (∀ (s : State) (l : LinePort) (xno : Xno) (arg : Byte), s.TakesNew (unitZeroRequest xno 0x000400 [4, arg]) l →
    (31 < arg.toNat → exec (.clearQuiet (.line xno) arg) s = .next { s with
      lp := l.givesStored (unitZeroRequest xno 0x000400 [4, arg]) .fault [0x0B, arg, 7] .nothing })
    ∧ ∀ i : SlotIx, arg.toNat = i.val →
      ((look s.tu.nodes i).state = .unused → exec (.clearQuiet (.line xno) arg) s = .next { s with
        lp := l.givesStored (unitZeroRequest xno 0x000400 [4, arg]) .fault [0x0B, arg, 4] .nothing })
      ∧ ((look s.tu.nodes i).state ≠ .unused → ∃ t,
        exec (.clearQuiet (.line xno) arg) s = .next { t with
          lp := l.givesStored (unitZeroRequest xno 0x000400 [4, arg]) .done [] .nothing }
        ∧ t = State.arbitrate { s with
          lp := l
          tu := { s.tu with nodes := put s.tu.nodes i { look s.tu.nodes i with state := .live, count := 0 } } }))
  ∧ ∀ (s u : State) (slot : MgmtIx) (rest : List MgmtIx) (tag : BitVec 5) (source : NodeId) (arg : Byte), s.resetn = true →
    s.tp.unserved = slot :: rest → look s.tp.slots slot = some ⟨tag, source, 0x400, .rqw [4, arg]⟩ → s.mu.settings.permit ≠ 0 →
    u = { s with tp := { s.tp with unserved := rest } } →
    (31 < arg.toNat → exec (.clearQuiet .trunk arg) s = .next (State.arbitrate { u with
      ia := { s.ia with cplClaims := s.ia.cplClaims ++ [⟨.cpl source tag 2 0 [0x0B, arg, 7], slot, true, false⟩] } }))
    ∧ ∀ i : SlotIx, arg.toNat = i.val →
      ((look s.tu.nodes i).state = .unused → exec (.clearQuiet .trunk arg) s = .next (State.arbitrate { u with
        ia := { s.ia with cplClaims := s.ia.cplClaims ++ [⟨.cpl source tag 2 0 [0x0B, arg, 4], slot, true, false⟩] } }))
      ∧ ((look s.tu.nodes i).state ≠ .unused → ∃ t,
        exec (.clearQuiet .trunk arg) s = .next (State.arbitrate { t with
          ia := { t.ia with cplClaims := t.ia.cplClaims ++ [⟨.cpl source tag 0 0 [], slot, true, false⟩] } })
        ∧ t = State.arbitrate { u with
          tu := { s.tu with nodes := put s.tu.nodes i { look s.tu.nodes i with state := .live, count := 0 } } })

/-- FLUSH_RETENTION invalidates every buffer and voids every QUEUED or ACTIVE READ; DROP_NOTICES empties the Notice Queue and clears
the overrun flag, the serial counter kept. Nothing else changes but the answer.
RESTART from the line is answered DONE and takes effect only at the end of that DONE. SEGRESET from the line takes effect at once:
from any state the link is ISOLATED with TRST low and the segment hold timer started, credits 0, slots FREE, the other timers
stopped; from UP it leaves with reason 3, and ACTIVE exchanges are marked (log 30). -/
def Obligations.CommandsTakeEffect : Prop :=
  (∀ (s : State) (l : LinePort) (xno : Xno) (arg : Byte),
     (s.TakesNew (unitZeroRequest xno 0x000400 [5, arg]) l → exec (.flushRetention (.line xno) arg) s = .next { s with
       lp := l.givesStored (unitZeroRequest xno 0x000400 [5, arg]) .done [] .nothing
       ru := ⟨mapIx (fun _ b => if b.valid then Buffer.invalid else b) s.ru.buffers, []⟩
       xu := { s.xu with
         records := mapIx (fun _ e =>
           if (e.state = .queued ∨ e.state = .active) ∧ e.kind = .read ∧ e.retain = some true then
             { e with retain := some false }
           else e) s.xu.records } })
     ∧ (s.TakesNew (unitZeroRequest xno 0x000400 [6, arg]) l → exec (.dropNotices (.line xno) arg) s = .next { s with
       lp := l.givesStored (unitZeroRequest xno 0x000400 [6, arg]) .done [] .nothing
       nu := { s.nu with queue := [], overrun := false } }))
  ∧ (∀ (s : State) (l : LinePort) (xno : Xno) (arg : Byte),
       (s.TakesNew (unitZeroRequest xno 0x000400 [1, arg]) l → exec (.restart (.line xno) arg) s = .next { s with
         lp := l.givesStored (unitZeroRequest xno 0x000400 [1, arg]) .done [] .restart })
       ∧ (s.TakesNew (unitZeroRequest xno 0x000400 [2, arg]) l → ∃ t, exec (.segreset (.line xno) arg) s = .next t
         ∧ t = { s with lp := t.lp, xu := t.xu, tp := t.tp, ia := t.ia, reports := t.reports }
         ∧ t.lp = l.givesStored (unitZeroRequest xno 0x000400 [2, arg]) .done [] .nothing
         ∧ t.trst = false
         ∧ t.tp = { s.tp with
             link := .isolated, requestLimit := 0, requestConsumed := 0, pushLimit := 0, pushConsumed := 0, grantedRequest := 0
             grantedPush := 0, slots := Vector.replicate 2 none, unserved := []
             segmentHold := some (Config.ms s.mu.settings.segmentHold)
             attemptTimer := none, capInterval := none, settle := none, linkLoss := none }
         ∧ (s.tp.link = .negotiate → t.ia = { s.ia with capClaim := false, capackClaim := false })
         ∧ (s.tp.link = .settle → t.ia = { s.ia with idleTimer := none })
         ∧ (s.tp.link ≠ .negotiate → s.tp.link ≠ .settle → s.tp.link ≠ .up → t.ia = s.ia)
         ∧ (s.tp.link ≠ .up → t.xu = s.xu ∧ t.reports = s.reports)
         ∧ (s.tp.link = .up → t.xu = { s.xu with
             records := mapIx (fun _ e => if e.state = .active then { e with leftUp := true } else e) s.xu.records }
           ∧ t.reports = (Reports.offering s .linkDown 3 (Reports.leftUp .segreset s.reports))
           ∧ t.ia = { s.ia with
             cplClaims := s.ia.cplClaims.map fun c => { c with held := false }
             transmitter := s.ia.transmitter.mapEffect PacketEffect.released })))

/-! ### The management space from the trunk -/

/-- MANAGEMENT_REQUEST_SERVE: MU takes the oldest held request it has not taken: the permit, the address, then the access as from the
line; one CPL claim for the slot; a station write is in force at once, a RESTART restarts, a SEGRESET is pending on the CPL; then IA
judges (logs 5, 13, 26 and 28). -/
def Obligations.HeldRequestIsServed : Prop :=
  ∀ (s u : State) (slot : MgmtIx) (rest : List MgmtIx) (q : MgmtRequest), s.resetn = true → s.tp.unserved = slot :: rest →
    look s.tp.slots slot = some q → u = { s with tp := { s.tp with unserved := rest } } →
    ∀ claim : Byte → List Byte → Bool → CplClaim,
      (claim = fun status payload segreset => ⟨.cpl q.source q.tag status 0 payload, slot, true, segreset⟩) →
      (s.mu.settings.permit = 0 → exec .managementRequestServe s = .next (State.arbitrate { u with
        ia := { s.ia with cplClaims := s.ia.cplClaims ++ [claim 2 [0x0B, 0, 9] false] } }))
      ∧ (s.mu.settings.permit ≠ 0 → 2 ^ 24 ≤ q.addr.toNat → exec .managementRequestServe s = .next (State.arbitrate { u with
        ia := { s.ia with cplClaims := s.ia.cplClaims ++ [claim 3 [0x04, 0, 0] false] } }))
      ∧ (s.mu.settings.permit ≠ 0 → q.addr.toNat < 2 ^ 24 → ∀ code detail,
          ((∃ count, q.body = .rqr count ∧ u.readSpace q.addr.toNat count.toNat = .error (code, detail))
            ∨ ∃ payload, q.body = .rqw payload ∧ u.writeSpace q.addr.toNat payload = .error (code, detail)) →
          exec .managementRequestServe s = .next (State.arbitrate { u with ia := { s.ia with cplClaims := s.ia.cplClaims
            ++ [claim (if code = .range then 3 else 2) (code.code :: beBytes 2 detail.toNat) false] } }))
      ∧ (s.mu.settings.permit ≠ 0 → q.addr.toNat < 2 ^ 24 → ∀ count bytes, q.body = .rqr count →
          u.readSpace q.addr.toNat count.toNat = .ok bytes →
          exec .managementRequestServe s = .next (State.arbitrate { u with
            ia := { s.ia with cplClaims := s.ia.cplClaims ++ [claim 0 bytes false] } }))
      ∧ (s.mu.settings.permit ≠ 0 → q.addr.toNat < 2 ^ 24 → ∀ payload v d, q.body = .rqw payload →
          u.writeSpace q.addr.toNat payload = .ok (v, d) →
          ∀ w : State, w = { v with ia := { v.ia with cplClaims := v.ia.cplClaims ++ [claim 0 [] (d == .segreset)] } } →
          exec .managementRequestServe s = .next (State.arbitrate
            (match d with
            | .nothing => w
            | .segreset => w
            | .restart => w.restarted
            | .station => { w with lp := { w.lp with station := w.mu.settings.station } })))

/-- The rows of management writes with the trunk as their port: MU's taking of the held RQW that carries that write; with no such RQW
next, nothing (log 20). -/
def Obligations.TrunkWritesAreServed : Prop :=
  ∀ (s : State) (offset : BitVec 24) (data : List Byte) (c : Instr), s.resetn = true →
    (c = .settingsWrite .trunk offset data ∨ c = .managementWrite .trunk offset data ∨ c = .windowImageWrite .trunk offset data
      ∨ c = .nodeImageWrite .trunk offset data
      ∨ (∃ value, c = .stationWrite .trunk value ∧ offset = 0x000104 ∧ data = [value])
      ∨ ∃ arg, offset = 0x000400 ∧
        (c = .restart .trunk arg ∧ data = [1, arg] ∨ c = .segreset .trunk arg ∧ data = [2, arg]
          ∨ c = .clearCounters .trunk arg ∧ data = [3, arg] ∨ c = .clearQuiet .trunk arg ∧ data = [4, arg]
          ∨ c = .flushRetention .trunk arg ∧ data = [5, arg] ∨ c = .dropNotices .trunk arg ∧ data = [6, arg])) →
    (∀ slot rest q, s.tp.unserved = slot :: rest → look s.tp.slots slot = some q → q.body = .rqw data →
      q.addr.toNat % 2 ^ 24 = offset.toNat → exec c s = exec .managementRequestServe s)
    ∧ ((∀ slot ∈ s.tp.unserved.head?, ∀ q ∈ look s.tp.slots slot,
        ¬(q.body = .rqw data ∧ q.addr.toNat % 2 ^ 24 = offset.toNat)) → exec c s = .next s)

/-! ### Timers -/

/-- HOLD_TIMER_EXPIRY of an ANSWERED exchange frees the record and removes its rank; no counter moves, no self-notice is raised. -/
def Obligations.AnsweredHoldExpires : Prop :=
  ∀ (s : State) (i : RecIx), s.resetn = true → (s.record i).state = .answered → (s.record i).holdTimer ≠ none →
    exec (.holdTimerExpiry i) s = .next { s with
      xu := ⟨put s.xu.records i Exchange.free, s.xu.answerOrder.filter (· != i)⟩ }

/-- HOLD_TIMER_EXPIRY of a READY exchange frees the record, counts the dropped result, and offers RESULT_DROPPED with xno and kind.
COMPLETION_TIMER_EXPIRY of a BUSY tag: COOLING with its fields kept, counted, TIMEOUT at the piece start to XU, a timeout to TU, and
IA judges; COOL_DOWN_EXPIRY of a COOLING tag: FREE, and IA judges; RETENTION_EXPIRY: the buffer invalid. -/
def Obligations.ReadyTagAndBufferTimersExpire : Prop :=
  (∀ (s : State) (i : RecIx), s.resetn = true → (s.record i).state = .ready → (s.record i).holdTimer ≠ none → i ∉ s.xu.answerOrder →
     exec (.holdTimerExpiry i) s = .next { s with
       xu := { s.xu with records := put s.xu.records i Exchange.free }
       mu := s.mu.counts .resultsDropped 1
       reports := Reports.offering s .resultDropped ((s.record i).xno.toNat * 256 + (s.record i).kind.code) s.reports })
  ∧ (∀ s : State, s.resetn = true →
       (∀ (t : TagIx) (n : Nat), (s.tag t).state = .busy → (s.tag t).timer = .completion n →
         exec (.completionTimerExpiry t) s = .next (State.arbitrate { s with
           cu := ⟨put s.cu.tags t { s.tag t with state := .cooling, timer := .coolDown (Config.ms (s.tag t).timeout) }⟩
           mu := s.mu.counts .completionTimeouts 1
           reports := { s.reports with
             pieceResults := s.reports.pieceResults
               ++ ((s.tag t).owner.map fun i => (i, PieceResult.failure .timeout (BitVec.ofNat 16 (s.tag t).start))).toList
             nodeReports := s.reports.nodeReports ++ [((s.tag t).slot, .timeout)] } }))
       ∧ (∀ (t : TagIx) (n : Nat), (s.tag t).state = .cooling → (s.tag t).timer = .coolDown n →
         exec (.coolDownExpiry t) s = .next (State.arbitrate { s with cu := ⟨put s.cu.tags t Tag.free⟩ }))
       ∧ ∀ i : BufIx, (look s.ru.buffers i).valid = true → (look s.ru.buffers i).timer ≠ none →
         exec (.retentionExpiry i) s = .next { s with
           ru := ⟨put s.ru.buffers i Buffer.invalid, s.ru.useOrder.filter (· != i)⟩ })

/-- The link's way into NEGOTIATE: SEGMENT_HOLD_EXPIRY in ISOLATED enters AWAIT_REF, which REFOK high takes on at once; REFOK_RISE in
AWAIT_REF enters NEGOTIATE at attempt 1 with a CAP claimed and both timers started; elsewhere a rise changes the pin alone.
REFOK_FALL: from NEGOTIATE the attempt ends and its claims are withdrawn; from SETTLE and UP the credits are 0 and the timers stop;
from UP the slots are FREE, ACTIVE exchanges are marked (log 30), the leaving is reported to five blocks with reason 2, and LINK_DOWN is
offered; each goes to AWAIT_REF. -/
def Obligations.RefokStartsAndEndsNegotiation : Prop :=
  (∀ s : State, s.resetn = true →
     (s.refok = false → s.tp.link = .isolated → s.tp.segmentHold ≠ none →
       exec .segmentHoldExpiry s = .next { s with tp := { s.tp with link := .awaitRef, segmentHold := none } })
     ∧ (s.refok = true → s.tp.link = .isolated → s.tp.segmentHold ≠ none →
       exec .segmentHoldExpiry s = .next (State.arbitrate { s with
         tp := { s.tp with
           link := .negotiate, segmentHold := none, attempt := 1, farCap := none, acknowledged := false, farCapack := false
           attemptTimer := some 1000, capInterval := some 100 }
         ia := { s.ia with
           capackClaim := false, capClaim := true, transmitter := s.ia.transmitter.mapEffect PacketEffect.stale } }))
     ∧ (s.refok = false → s.tp.link = .awaitRef →
       exec .refokRise s = .next (State.arbitrate { s with
         refok := true
         tp := { s.tp with
           link := .negotiate, attempt := 1, farCap := none, acknowledged := false, farCapack := false
           attemptTimer := some 1000, capInterval := some 100 }
         ia := { s.ia with
           capackClaim := false, capClaim := true, transmitter := s.ia.transmitter.mapEffect PacketEffect.stale } }))
     ∧ (s.refok = false → s.tp.link ≠ .awaitRef → exec .refokRise s = .next { s with refok := true }))
  ∧ (∀ s : State, s.resetn = true → s.refok = true →
       (s.tp.link = .negotiate → exec .refokFall s = .next { s with
         refok := false
         tp := { s.tp with link := .awaitRef, segmentHold := none, attemptTimer := none, capInterval := none }
         ia := { s.ia with capClaim := false, capackClaim := false } })
       ∧ (s.tp.link = .settle → exec .refokFall s = .next { s with
         refok := false
         tp := { s.tp with
           link := .awaitRef, segmentHold := none, settle := none, linkLoss := none
           requestLimit := 0, requestConsumed := 0, pushLimit := 0, pushConsumed := 0, grantedRequest := 0, grantedPush := 0 }
         ia := { s.ia with idleTimer := none } })
       ∧ (s.tp.link = .up → exec .refokFall s = .next { s with
         refok := false
         xu := { s.xu with
           records := mapIx (fun _ e => if e.state = .active then { e with leftUp := true } else e) s.xu.records }
         tp := { s.tp with
           link := .awaitRef, segmentHold := none, linkLoss := none, slots := Vector.replicate 2 none, unserved := []
           requestLimit := 0, requestConsumed := 0, pushLimit := 0, pushConsumed := 0, grantedRequest := 0, grantedPush := 0 }
         ia := { s.ia with
           cplClaims := s.ia.cplClaims.map fun c => { c with held := false }
           transmitter := s.ia.transmitter.mapEffect PacketEffect.released }
         reports := Reports.offering s .linkDown 2 { s.reports with
           leftAtXu := s.reports.leftAtXu ++ [.refokFell]
           leftAtCu := s.reports.leftAtCu ++ [.refokFell]
           leftAtPq := s.reports.leftAtPq ++ [.refokFell]
           leftAtRu := s.reports.leftAtRu ++ [.refokFell]
           leftAtIa := s.reports.leftAtIa ++ [.refokFell] } })
       ∧ (s.tp.link = .isolated ∨ s.tp.link = .awaitRef ∨ s.tp.link = .failed → exec .refokFall s = .next { s with refok := false }))

/-- In NEGOTIATE: ATTEMPT_TIMER_EXPIRY starts the next attempt, or after the eighth enters FAILED with its reports and LINK_FAILED;
CAP_INTERVAL_EXPIRY raises a CAP claim and starts its timer again.
SETTLE_TIMER_EXPIRY enters UP, offers LINK_UP, and IA judges the Order List. LINK_LOSS_TIMER_EXPIRY leaves SETTLE or UP for
AWAIT_REF, from UP with reason 1, the mark on ACTIVE exchanges (log 30), the reports and LINK_DOWN.
IDLE_TIMER_EXPIRY in SETTLE or UP, with the transmitter FREE and nothing of a higher class to send: a KEEP goes out at the rate in
force. -/
def Obligations.LinkTimersExpire : Prop :=
  (∀ s : State, s.resetn = true → s.tp.link = .negotiate →
     (s.tp.attemptTimer ≠ none → s.tp.attempt < 8 → exec .attemptTimerExpiry s = .next (State.arbitrate { s with
       tp := { s.tp with
         attempt := s.tp.attempt + 1, farCap := none, acknowledged := false, farCapack := false
         attemptTimer := some 1000, capInterval := some 100 }
       ia := { s.ia with
         capackClaim := false, capClaim := true, transmitter := s.ia.transmitter.mapEffect PacketEffect.stale } }))
     ∧ (s.tp.attemptTimer ≠ none → 8 ≤ s.tp.attempt → exec .attemptTimerExpiry s = .next { s with
       tp := { s.tp with link := .failed, attemptTimer := none, capInterval := none }
       ia := { s.ia with capClaim := false, capackClaim := false }
       reports := Reports.offering s .linkFailed 0 { s.reports with
         failedAtXu := s.reports.failedAtXu + 1, failedAtPq := s.reports.failedAtPq + 1 } })
     ∧ (s.tp.capInterval ≠ none → exec .capIntervalExpiry s = .next (State.arbitrate { s with
       tp := { s.tp with capInterval := some 100 }, ia := { s.ia with capClaim := true } })))
  ∧ (∀ s : State, s.resetn = true →
       (s.tp.link = .settle → s.tp.settle ≠ none → exec .settleTimerExpiry s = .next (State.arbitrate { s with
         tp := { s.tp with link := .up, settle := none }
         reports := Reports.offering s .linkUp 0 s.reports }))
       ∧ (s.tp.link = .settle → s.tp.linkLoss ≠ none → exec .linkLossTimerExpiry s = .next (State.arbitrate (State.enterAwaitRef { s with
         tp := { s.tp with
           settle := none, linkLoss := none
           requestLimit := 0, requestConsumed := 0, pushLimit := 0, pushConsumed := 0, grantedRequest := 0, grantedPush := 0 }
         ia := { s.ia with idleTimer := none } })))
       ∧ (s.tp.link = .up → s.tp.linkLoss ≠ none → exec .linkLossTimerExpiry s = .next (State.arbitrate (State.enterAwaitRef { s with
         xu := { s.xu with
           records := mapIx (fun _ e => if e.state = .active then { e with leftUp := true } else e) s.xu.records }
         tp := { s.tp with
           linkLoss := none, slots := Vector.replicate 2 none, unserved := []
           requestLimit := 0, requestConsumed := 0, pushLimit := 0, pushConsumed := 0, grantedRequest := 0, grantedPush := 0 }
         ia := { s.ia with
           cplClaims := s.ia.cplClaims.map fun c => { c with held := false }
           transmitter := s.ia.transmitter.mapEffect PacketEffect.released }
         reports := Reports.offering s .linkDown 1 { s.reports with
           leftAtXu := s.reports.leftAtXu ++ [.loss]
           leftAtCu := s.reports.leftAtCu ++ [.loss]
           leftAtPq := s.reports.leftAtPq ++ [.loss]
           leftAtRu := s.reports.leftAtRu ++ [.loss]
           leftAtIa := s.reports.leftAtIa ++ [.loss] } }))))
  ∧ (∀ s : State, s.resetn = true → s.tp.link = .settle ∨ s.tp.link = .up → s.ia.idleTimer ≠ none → s.ia.transmitter = .free →
       (s.tp.link = .up → s.ia.creditClaim = false ∧ s.ia.cplClaims = [] ∧ s.pick = none) →
       exec .idleTimerExpiry s = .next { s with
         ia := { s.ia with idleTimer := none, transmitter := .sending .keep s.tp.rateClass .nothing } })

/-! ### Trunk packets -/

/-- TRUNK_PACKET_END: the transmitter is FREE, the idle timer starts in SETTLE and UP, and IA judges; a management CPL of a held slot
frees it, raises the granted limit and claims a CREDIT; a pending SEGRESET takes effect; a CAPACK that echoes the accepted CAP sets the
acknowledged flag, which with the far CAPACK completes the negotiation (logs 9 and 10). -/
def Obligations.PacketEnds : Prop :=
  ∀ (s u : State) (p : Packet) (rate : Byte) (effect : PacketEffect), s.resetn = true → s.ia.transmitter = .sending p rate effect →
    u = { s with ia := { s.ia with
      transmitter := .free
      idleTimer := if s.tp.link = .settle ∨ s.tp.link = .up then some 250 else s.ia.idleTimer } } →
    (effect = .nothing ∨ effect = .capack false → exec .trunkPacketEnd s = .next u.arbitrate)
    ∧ (∀ slot held segreset (v : State), effect = .managementCpl slot held segreset →
      v = (if held then { u with
          tp := { u.tp with slots := put u.tp.slots slot none, grantedRequest := u.tp.grantedRequest + 1 }
          ia := { u.ia with creditClaim := true } } else u) →
      exec .trunkPacketEnd s = .next (State.arbitrate (if segreset then v.segmentReset else v)))
    ∧ (∀ f, effect = .capack true → p = .capack f →
      (s.tp.link = .negotiate → s.tp.farCap = some f → s.tp.farCapack = false →
        exec .trunkPacketEnd s = .next (State.arbitrate { u with tp := { u.tp with acknowledged := true } }))
      ∧ (s.tp.link = .negotiate → s.tp.farCap = some f → s.tp.farCapack = true →
        exec .trunkPacketEnd s = .next (State.arbitrate (State.enterSettle f { u with tp := { u.tp with acknowledged := true } })))
      ∧ (s.tp.link ≠ .negotiate ∨ s.tp.farCap ≠ some f → exec .trunkPacketEnd s = .next u.arbitrate))

/-- What the receiver does before any type is looked at: outside NEGOTIATE, SETTLE and UP everything is lost; bytes that fail the CRC
or the form, a typed packet of bad form among them, are counted and do nothing else; a KEEP only restarts the link loss timer; a
packet for another node ID, or any while the node ID is 0, is counted as misrouted; a PSH for the gateway is refused and counted. -/
def Obligations.ReceiverFilters : Prop :=
  ∀ s : State, s.resetn = true →
    (s.tp.link = .isolated ∨ s.tp.link = .awaitRef ∨ s.tp.link = .failed → ∀ c : Instr,
      ((∃ f, c = .cap f) ∨ (∃ f, c = .capack f) ∨ (∃ a b, c = .credit a b) ∨ c = .keep ∨ (∃ b, c = .trunkBadPacket b)
        ∨ (∃ a b d e f, c = .incomingManagementRequest a b d e f) ∨ (∃ a b d e, c = .psh a b d e)
        ∨ (∃ a b d e f, c = .cpl a b d e f) ∨ ∃ a b d e, c = .ntc a b d e) → exec c s = .next s)
    ∧ (s.tp.link = .negotiate ∨ s.tp.link = .settle ∨ s.tp.link = .up →
      ∀ tp : TrunkPort, tp = (if s.tp.link = .negotiate then s.tp
          else { s.tp with linkLoss := some (Config.ms s.mu.settings.linkLoss) }) →
      (∀ bytes, parsePacket bytes = none → exec (.trunkBadPacket bytes) s = .next { s with mu := s.mu.counts .trunkCrc 1 })
      ∧ (∀ c : Instr,
          ((∃ f, c = .capack f ∧ 4096 ≤ f.nodeId.toNat)
            ∨ (∃ dest source addr payload, c = .psh dest source addr payload ∧ (payload.length = 0 ∨ 512 < payload.length))
            ∨ (∃ dest tag status remaining payload, c = .cpl dest tag status remaining payload ∧ 512 < payload.length)
            ∨ ∃ tag dest source addr body, c = .incomingManagementRequest tag dest source addr body ∧ body.ok = false) →
          exec c s = .next { s with mu := s.mu.counts .trunkCrc 1 })
      ∧ exec .keep s = .next { s with tp := tp }
      ∧ (∀ dest source addr payload, 1 ≤ payload.length → payload.length ≤ 512 →
          (dest = s.tp.nodeId → dest ≠ 0 →
            exec (.psh dest source addr payload) s = .next { s with tp := tp, mu := s.mu.counts .trunkRefusedExtra 1 })
          ∧ (dest ≠ s.tp.nodeId ∨ s.tp.nodeId = 0 →
            exec (.psh dest source addr payload) s = .next { s with tp := tp, mu := s.mu.counts .trunkMisrouted 1 }))
      ∧ (∀ tag dest status remaining payload, payload.length ≤ 512 → dest ≠ s.tp.nodeId ∨ s.tp.nodeId = 0 →
          exec (.cpl dest tag status remaining payload) s = .next { s with tp := tp, mu := s.mu.counts .trunkMisrouted 1 })
      ∧ (∀ source dest code arg, dest ≠ s.tp.nodeId ∨ s.tp.nodeId = 0 →
          exec (.ntc source dest code arg) s = .next { s with tp := tp, mu := s.mu.counts .trunkMisrouted 1 })
      ∧ ∀ tag dest source addr body, body.ok = true → dest ≠ s.tp.nodeId ∨ s.tp.nodeId = 0 →
          exec (.incomingManagementRequest tag dest source addr body) s
            = .next { s with tp := tp, mu := s.mu.counts .trunkMisrouted 1 })

/-- A far CAP in NEGOTIATE: acceptable, it is kept and a CAPACK claimed, the acknowledged flag standing only for an identical repeat;
else the attempt ends. In SETTLE and UP it takes the link to AWAIT_REF, from UP with reason 4 and ACTIVE exchanges marked (log 30). A
CAP is acceptable with rate class 1..4, piece maximum 64, 128, 256 or 512, and node ID 1..4094; that one of 4096..65535 ends the
attempt is the model's reading (log 31).
A CAPACK in NEGOTIATE that echoes the gateway's own CAP sets the far CAPACK received flag; with the acknowledged flag and an accepted
far CAP the link enters SETTLE with the values of that CAP; any other CAPACK is ignored. -/
def Obligations.NegotiationPacketsAreJudged : Prop :=
  (∀ (s : State) (f : CapFields), s.resetn = true →
     (s.tp.link = .negotiate → capAcceptable f = true → exec (.cap f) s = .next (State.arbitrate { s with
       tp := { s.tp with farCap := some f, acknowledged := s.tp.acknowledged && s.tp.farCap == some f }
       ia := { s.ia with capackClaim := true } }))
     ∧ (s.tp.link = .negotiate → capAcceptable f = false → s.tp.attempt < 8 → exec (.cap f) s = .next (State.arbitrate { s with
       tp := { s.tp with
         attempt := s.tp.attempt + 1, farCap := none, acknowledged := false, farCapack := false
         attemptTimer := some 1000, capInterval := some 100 }
       ia := { s.ia with
         capackClaim := false, capClaim := true, transmitter := s.ia.transmitter.mapEffect PacketEffect.stale } }))
     ∧ (s.tp.link = .negotiate → capAcceptable f = false → 8 ≤ s.tp.attempt → exec (.cap f) s = .next { s with
       tp := { s.tp with link := .failed, attemptTimer := none, capInterval := none }
       ia := { s.ia with capClaim := false, capackClaim := false }
       reports := Reports.offering s .linkFailed 0 { s.reports with
         failedAtXu := s.reports.failedAtXu + 1, failedAtPq := s.reports.failedAtPq + 1 } })
     ∧ (s.tp.link = .settle → exec (.cap f) s = .next (State.arbitrate (State.enterAwaitRef { s with
       tp := { s.tp with
         settle := none, linkLoss := none
         requestLimit := 0, requestConsumed := 0, pushLimit := 0, pushConsumed := 0, grantedRequest := 0, grantedPush := 0 }
       ia := { s.ia with idleTimer := none } })))
     ∧ (s.tp.link = .up → exec (.cap f) s = .next (State.arbitrate (State.enterAwaitRef { s with
       xu := { s.xu with
         records := mapIx (fun _ e => if e.state = .active then { e with leftUp := true } else e) s.xu.records }
       tp := { s.tp with
         linkLoss := none, slots := Vector.replicate 2 none, unserved := []
         requestLimit := 0, requestConsumed := 0, pushLimit := 0, pushConsumed := 0, grantedRequest := 0, grantedPush := 0 }
       ia := { s.ia with
         cplClaims := s.ia.cplClaims.map fun c => { c with held := false }
         transmitter := s.ia.transmitter.mapEffect PacketEffect.released }
       reports := Reports.offering s .linkDown 4 { s.reports with
         leftAtXu := s.reports.leftAtXu ++ [.farCap]
         leftAtCu := s.reports.leftAtCu ++ [.farCap]
         leftAtPq := s.reports.leftAtPq ++ [.farCap]
         leftAtRu := s.reports.leftAtRu ++ [.farCap]
         leftAtIa := s.reports.leftAtIa ++ [.farCap] } }))))
  ∧ (∀ f : CapFields, capAcceptable f = true ↔
       1 ≤ f.rateClass.toNat ∧ f.rateClass.toNat ≤ 4
         ∧ (f.pieceMax.toNat = 64 ∨ f.pieceMax.toNat = 128 ∨ f.pieceMax.toNat = 256 ∨ f.pieceMax.toNat = 512)
         ∧ 1 ≤ f.nodeId.toNat ∧ f.nodeId.toNat ≤ 4094)
  ∧ (∀ (s : State) (f : CapFields), s.resetn = true → f.nodeId.toNat < 4096 →
       (s.tp.link = .negotiate → f = ⟨4, 512, 2, 0, 0⟩ → s.tp.acknowledged = false ∨ s.tp.farCap = none →
         exec (.capack f) s = .next (State.arbitrate { s with tp := { s.tp with farCapack := true } }))
       ∧ (∀ g, s.tp.link = .negotiate → f = ⟨4, 512, 2, 0, 0⟩ → s.tp.acknowledged = true → s.tp.farCap = some g →
         exec (.capack f) s = .next { s with
           tp := { s.tp with
             link := .settle, farCapack := true, attemptTimer := none, capInterval := none
             rateClass := if g.rateClass.toNat ≤ 4 then g.rateClass else 4
             pieceMax := if g.pieceMax.toNat ≤ 512 then g.pieceMax else 512
             nodeId := g.nodeId.setWidth 12
             requestLimit := g.requestLimit, pushLimit := g.pushLimit, requestConsumed := 0, pushConsumed := 0
             grantedRequest := 2, grantedPush := 0, slots := Vector.replicate 2 none, unserved := []
             settle := some 200, linkLoss := some (Config.ms s.mu.settings.linkLoss) }
           ia := { s.ia with
             capClaim := false, capackClaim := false
             idleTimer := if s.ia.transmitter = .free then some 250 else s.ia.idleTimer } })
       ∧ (s.tp.link = .negotiate → f ≠ ⟨4, 512, 2, 0, 0⟩ → exec (.capack f) s = .next s.arbitrate)
       ∧ (s.tp.link = .settle ∨ s.tp.link = .up →
         exec (.capack f) s = .next { s with tp := { s.tp with linkLoss := some (Config.ms s.mu.settings.linkLoss) } }))

/-- A CREDIT in SETTLE and UP: each limit takes its new value when that is ahead by less than 128, mod 256, and stays when the value is
stale; then IA judges. In NEGOTIATE it is not taken. -/
def Obligations.CreditRaisesLimits : Prop :=
  ∀ (s : State) (request push : Byte), s.resetn = true →
    (s.tp.link = .settle ∨ s.tp.link = .up → exec (.credit request push) s = .next (State.arbitrate { s with
      tp := { s.tp with
        linkLoss := some (Config.ms s.mu.settings.linkLoss)
        requestLimit := if (request - s.tp.requestLimit).toNat < 128 then request else s.tp.requestLimit
        pushLimit := if (push - s.tp.pushLimit).toNat < 128 then push else s.tp.pushLimit } }))
    ∧ (s.tp.link = .negotiate → exec (.credit request push) s = .next s)

/-- An RQR or RQW for the gateway: in UP it takes the lowest FREE slot and waits for MU; with both slots held, or in NEGOTIATE or
SETTLE, it is dropped and counted as refused-extra. -/
def Obligations.IncomingRequestIsHeld : Prop :=
  ∀ (s : State) (tag : BitVec 5) (source : NodeId) (addr : FabricAddr) (body : MgmtBody),
    s.resetn = true → s.tp.nodeId ≠ 0 → body.ok = true →
    (∀ i : MgmtIx, s.tp.link = .up → look s.tp.slots i = none → (∀ j, j < i → look s.tp.slots j ≠ none) →
      exec (.incomingManagementRequest tag s.tp.nodeId source addr body) s = .next { s with
        tp := { s.tp with
          linkLoss := some (Config.ms s.mu.settings.linkLoss)
          slots := put s.tp.slots i (some ⟨tag, source, addr, body⟩), unserved := s.tp.unserved ++ [i] } })
    ∧ (s.tp.link = .settle ∨ s.tp.link = .up ∧ (∀ i : MgmtIx, look s.tp.slots i ≠ none) →
      exec (.incomingManagementRequest tag s.tp.nodeId source addr body) s = .next { s with
        tp := { s.tp with linkLoss := some (Config.ms s.mu.settings.linkLoss) }, mu := s.mu.counts .trunkRefusedExtra 1 })
    ∧ (s.tp.link = .negotiate → exec (.incomingManagementRequest tag s.tp.nodeId source addr body) s = .next { s with
        mu := s.mu.counts .trunkRefusedExtra 1 })

/-- A CPL for a COOLING tag is late: dropped and counted, the tag unchanged. A CPL for a FREE tag is stray: dropped, counted, STRAY
offered with the tag number. -/
def Obligations.LateAndStrayAreDropped : Prop :=
  ∀ (s : State) (tag : TagIx) (status : Byte) (remaining : BitVec 16) (payload : List Byte) (tp : TrunkPort),
    s.resetn = true → s.tp.nodeId ≠ 0 → payload.length ≤ 512 →
    (s.tp.link = .negotiate ∧ tp = s.tp
      ∨ (s.tp.link = .settle ∨ s.tp.link = .up) ∧ tp = { s.tp with linkLoss := some (Config.ms s.mu.settings.linkLoss) }) →
    ((s.tag tag).state = .cooling → exec (.cpl s.tp.nodeId tag status remaining payload) s = .next { s with
      tp := tp, mu := s.mu.counts .lateCpl 1 })
    ∧ ((s.tag tag).state = .free → exec (.cpl s.tp.nodeId tag status remaining payload) s = .next { s with
      tp := tp, mu := s.mu.counts .strayCpl 1, reports := Reports.offering s .stray tag.val s.reports })

/-- A CPL for a BUSY tag in NEGOTIATE, SETTLE or UP; the link loss timer restarts in SETTLE and UP. A status other than OK: the tag
FREE and FAULT REMOTE with that status to XU. Status OK, with `owed` the bytes still expected: of the right shape and remaining not 0,
a READ's bytes are placed and counted; remaining 0, they are placed, the tag is FREE and success goes to XU and TU; of the wrong
shape, the tag is COOLING and FAULT PROTOCOL goes to XU. IA judges. -/
def Obligations.BusyTagCompletes : Prop :=
  ∀ (s u placed : State) (tag : TagIx) (r : Tag) (i : RecIx) (owed : Nat) (status : Byte) (remaining : BitVec 16) (payload : List Byte),
    s.resetn = true → s.tp.link = .negotiate ∨ s.tp.link = .settle ∨ s.tp.link = .up → s.tp.nodeId ≠ 0 → payload.length ≤ 512 →
    r = s.tag tag → r.state = .busy →
    r.owner = some i → owed = (if r.kind = .read then r.length - r.received else 0) →
    u = { s with tp := if s.tp.link = .negotiate then s.tp
      else { s.tp with linkLoss := some (Config.ms s.mu.settings.linkLoss) } } →
    placed = (if r.kind = .read then { u with xu := { s.xu with records := put s.xu.records i { s.record i with
        readBuffer := (s.record i).readBuffer.take (r.start + r.received) ++ payload
          ++ (s.record i).readBuffer.drop (r.start + r.received + payload.length) } } } else u) →
    (status ≠ 0 → exec (.cpl s.tp.nodeId tag status remaining payload) s = .next (State.arbitrate { u with
      cu := ⟨put s.cu.tags tag Tag.free⟩
      reports := { s.reports with
        pieceResults := s.reports.pieceResults ++ [(i, .failure .remote (BitVec.ofNat 16 status.toNat))] } }))
    ∧ (status = 0 → payload.length ≤ owed → remaining.toNat = owed - payload.length → remaining ≠ 0 →
      exec (.cpl s.tp.nodeId tag status remaining payload) s = .next (State.arbitrate { placed with
        cu := ⟨put s.cu.tags tag { r with received := r.received + payload.length }⟩ }))
    ∧ (status = 0 → payload.length ≤ owed → remaining.toNat = owed - payload.length → remaining = 0 →
      exec (.cpl s.tp.nodeId tag status remaining payload) s = .next (State.arbitrate { placed with
        cu := ⟨put s.cu.tags tag Tag.free⟩
        reports := { s.reports with
          pieceResults := s.reports.pieceResults ++ [(i, .success)]
          nodeReports := s.reports.nodeReports ++ [(r.slot, .success)] } }))
    ∧ (status = 0 → owed < payload.length ∨ remaining.toNat ≠ owed - payload.length →
      exec (.cpl s.tp.nodeId tag status remaining payload) s = .next (State.arbitrate { u with
        cu := ⟨put s.cu.tags tag { r with state := .cooling, timer := .coolDown (Config.ms r.timeout) }⟩
        reports := { s.reports with
          pieceResults := s.reports.pieceResults ++ [(i, .failure .protocol (BitVec.ofNat 16 r.start))] } }))

/-! ### Reports taken -/

/-- PIECE_SUCCESS: the oldest result of the record is taken and its outstanding count falls; with pieces still outstanding or unissued
nothing else changes; else the exchange becomes READY, a pending result OK, its hold timer started, and a READ that is OK with its
retain flag set fills a buffer while the link is UP, and not if the link has left UP since the exchange became ACTIVE (log 30). A fill
takes the valid buffer of the same window, start and length, else the lowest invalid one, else use rank 1: its fields are the fill's,
it is valid, its timer starts, and it has the highest rank.
PIECE_FAILURE: the outstanding count falls, the first fault recorded stands, unissued pieces are abandoned and the exchange leaves
the Order List; with nothing outstanding it becomes READY; then IA judges. -/
def Obligations.PieceResultsAreTaken : Prop :=
  (∀ (s u : State) (i : RecIx) (e : Exchange) (before after : List (RecIx × PieceResult)), s.resetn = true →
     s.reports.pieceResults = before ++ (i, .success) :: after → (∀ r ∈ before, r.1 ≠ i) → e = s.record i →
     e.state = .queued ∨ e.state = .active →
     u = { s with reports := { s.reports with pieceResults := before ++ after } } →
     (1 < e.outstanding ∨ e.hasUnissued = true → exec (.pieceSuccess i) s = .next { u with xu := { s.xu with
       records := put s.xu.records i { e with outstanding := e.outstanding - 1 } } })
     ∧ (∀ ready : Exchange, e.outstanding = 1 → e.hasUnissued = false →
       ready = { e with
         outstanding := 0, state := .ready, result := if e.result = .pending then .ok else e.result
         holdTimer := some (Config.ms s.mu.settings.hold) } →
       exec (.pieceSuccess i) s = .next { u with
         xu := { s.xu with records := put s.xu.records i ready }
         ru := if ready.kind = .read ∧ ready.result = .ok ∧ ready.retain = some true ∧ ready.leftUp = false ∧ s.tp.link = .up then
             s.ru.fill e.window e.slot e.addr (e.readBuffer.take e.issueLength) (Config.ms s.mu.settings.retention)
           else s.ru }))
  ∧ (∀ (s u : State) (i : RecIx) (e : Exchange) (code : FaultCode) (detail : BitVec 16) (before after : List (RecIx × PieceResult)),
       s.resetn = true → s.reports.pieceResults = before ++ (i, .failure code detail) :: after → (∀ r ∈ before, r.1 ≠ i) →
       e = s.record i → e.state = .queued ∨ e.state = .active →
       u = { s with
         reports := { s.reports with pieceResults := before ++ after }
         ia := { s.ia with
           orderList := if e.hasUnissued then s.ia.orderList.filter (· != .exchange i) else s.ia.orderList } } →
       ∀ failed : Exchange, failed = { e with
           outstanding := e.outstanding - 1
           result := if e.result = .pending then .fault code detail else e.result
           abandoned := e.abandoned || e.hasUnissued } →
         (1 < e.outstanding → exec (.pieceFailure i) s = .next (State.arbitrate { u with
           xu := { s.xu with records := put s.xu.records i failed } }))
         ∧ (e.outstanding = 1 → failed.result ≠ .ok → exec (.pieceFailure i) s = .next (State.arbitrate { u with
           xu := { s.xu with
             records := put s.xu.records i
               { failed with state := .ready, holdTimer := some (Config.ms s.mu.settings.hold) } } })))
  ∧ ∀ (u : RetentionUnit) (window : WinIx) (slot : SlotIx) (addr : FabricAddr) (data : List Byte) (interval : Nat)
      (same : BufIx → Prop) (i : BufIx),
    (same = fun j => (look u.buffers j).valid = true ∧ (look u.buffers j).window = window ∧ (look u.buffers j).addr = addr
      ∧ (look u.buffers j).data.length = data.length) →
    (same i ∧ (∀ j, j ≠ i → ¬same j)
      ∨ (∀ j, ¬same j) ∧ (look u.buffers i).valid = false ∧ (∀ j, j < i → (look u.buffers j).valid = true)
      ∨ (∀ j, ¬same j) ∧ (∀ j, (look u.buffers j).valid = true) ∧ u.useOrder.head? = some i) →
    u.fill window slot addr data interval = {
      buffers := put u.buffers i { valid := true, window := window, slot := slot, addr := addr, data := data, timer := some interval }
      useOrder := u.useOrder.filter (· != i) ++ [i] }

/-- TIMEOUT_REPORT: the count rises to at most 15; a LIVE slot at or above its non-zero threshold becomes QUIET, is reported to XU, PQ
and IA, and NODE_QUIET is offered with its node ID; an UNUSED slot is not changed. -/
def Obligations.TimeoutReportIsCounted : Prop :=
  ∀ (s : State) (i : SlotIx) (n : Node) (before after : List (SlotIx × NodeReport)) (reports : Reports), s.resetn = true →
    s.reports.nodeReports = before ++ (i, .timeout) :: after → (i, .timeout) ∉ before → n = look s.tu.nodes i →
    reports = { s.reports with nodeReports := before ++ after } →
    (n.state = .unused → exec (.timeoutReport i) s = .next { s with reports := reports })
    ∧ (n.state = .quiet ∨ n.state = .live ∧ (n.threshold = 0 ∨ min 15 (n.count + 1) < n.threshold.toNat) →
      exec (.timeoutReport i) s = .next { s with
        reports := reports, tu := { s.tu with nodes := put s.tu.nodes i { n with count := min 15 (n.count + 1) } } })
    ∧ (n.state = .live → n.threshold ≠ 0 → n.threshold.toNat ≤ min 15 (n.count + 1) →
      exec (.timeoutReport i) s = .next { s with
        tu := { s.tu with nodes := put s.tu.nodes i { n with state := .quiet, count := min 15 (n.count + 1) } }
        reports := Reports.offering s .nodeQuiet n.nodeId.toNat { reports with
          quietAtXu := s.reports.quietAtXu ++ [i], quietAtPq := s.reports.quietAtPq ++ [i]
          quietAtIa := s.reports.quietAtIa ++ [i] } })

/-- SUCCESS_REPORT sets the slot's consecutive timeout count to 0; the state does not change. -/
def Obligations.SuccessReportClearsCount : Prop :=
  ∀ (s : State) (i : SlotIx) (before after : List (SlotIx × NodeReport)), s.resetn = true →
    s.reports.nodeReports = before ++ (i, .success) :: after → (i, .success) ∉ before →
    exec (.successReport i) s = .next { s with
      reports := { s.reports with nodeReports := before ++ after }
      tu := { s.tu with nodes := put s.tu.nodes i { look s.tu.nodes i with count := 0 } } }

/-- QUARANTINE_AT_XU: each QUEUED or ACTIVE exchange of the slot with unissued pieces records NODE_QUIET unless a fault stands, is
abandoned, and becomes READY when nothing is outstanding; every other record is unchanged. QUARANTINE_AT_IA takes the report alone. -/
def Obligations.QuarantineIsTaken : Prop :=
  ∀ (s : State) (slot : SlotIx), s.resetn = true →
    (slot ∈ s.reports.quietAtXu → RecordsOk s.xu → ∃ u : State, exec (.quarantineAtXu slot) s = .next u.arbitrate
      ∧ u = { s with
        xu := { s.xu with records := u.xu.records }
        ia := { s.ia with orderList := s.ia.orderList.filter fun m => ∀ i, m = .exchange i →
          ¬((s.record i).inWork = true ∧ (s.record i).slot = slot ∧ (s.record i).hasUnissued = true) }
        reports := { s.reports with quietAtXu := s.reports.quietAtXu.erase slot } }
      ∧ ∀ i : RecIx, u.record i =
        if (s.record i).inWork = true ∧ (s.record i).slot = slot ∧ (s.record i).hasUnissued = true then
          if (s.record i).outstanding = 0 then { s.record i with
            abandoned := true, state := .ready, holdTimer := some (Config.ms s.mu.settings.hold)
            result := if (s.record i).result = .pending then .fault .nodeQuiet (BitVec.ofNat 16 slot.val) else (s.record i).result }
          else { s.record i with
            abandoned := true
            result := if (s.record i).result = .pending then .fault .nodeQuiet (BitVec.ofNat 16 slot.val) else (s.record i).result }
        else s.record i)
    ∧ exec (.quarantineAtIa slot) s = .next { s with
      reports := { s.reports with quietAtIa := s.reports.quietAtIa.filter (· != slot) } }

/-- A cut: the head push is removed, its unissued bytes are counted and PUSH_CUT is offered. LEAVING_UP_AT_PQ cuts a started head and
no other, and on an empty queue is only taken; QUARANTINE_AT_PQ cuts a head of the QUIET slot reported, and no head of another slot;
each push that becomes the head by a cut is cut if its slot is QUIET, up to the first whose slot is not; FAILED_AT_PQ cuts every push.
Then IA judges. -/
def Obligations.PushesAreCut : Prop :=
  ∀ (s : State), s.resetn = true →
    (∀ (slot : SlotIx) (cut kept : List Push) (u : State), slot ∈ s.reports.quietAtPq → s.pq.pushes = cut ++ kept →
      (∀ p ∈ s.pq.pushes.head?, p.slot = slot) →
      (∀ p ∈ cut, (look s.tu.nodes p.slot).state = .quiet) → (∀ p ∈ kept.head?, (look s.tu.nodes p.slot).state ≠ .quiet) →
      u = State.cutHeads cut.length { s with reports := { s.reports with quietAtPq := s.reports.quietAtPq.erase slot } } →
      exec (.quarantineAtPq slot) s = .next u.arbitrate ∧ u.pq.pushes = kept)
    ∧ (∀ slot : SlotIx, slot ∈ s.reports.quietAtPq → (∀ p ∈ s.pq.pushes.head?, p.slot ≠ slot) →
      exec (.quarantineAtPq slot) s
        = .next (State.arbitrate { s with reports := { s.reports with quietAtPq := s.reports.quietAtPq.erase slot } }))
    ∧ (∀ (p : Push) (rest : List Push) (reason : DownReason) (left : List DownReason), s.pq.pushes = p :: rest →
      s.reports.leftAtPq = reason :: left →
      (∀ (cut kept : List Push) (u : State), 0 < p.issued → rest = cut ++ kept →
        (∀ q ∈ cut, (look s.tu.nodes q.slot).state = .quiet) → (∀ q ∈ kept.head?, (look s.tu.nodes q.slot).state ≠ .quiet) →
        u = State.cutHeads (cut.length + 1) { s with reports := { s.reports with leftAtPq := left } } →
        exec .leavingUpAtPq s = .next u.arbitrate ∧ u.pq.pushes = kept)
      ∧ (p.issued = 0 → exec .leavingUpAtPq s = .next (State.arbitrate { s with reports := { s.reports with leftAtPq := left } })))
    ∧ (∀ (reason : DownReason) (left : List DownReason), s.pq.pushes = [] → s.reports.leftAtPq = reason :: left →
      exec .leavingUpAtPq s = .next (State.arbitrate { s with reports := { s.reports with leftAtPq := left } }))
    ∧ (∀ n u, s.reports.failedAtPq = n + 1 →
      u = State.cutHeads s.pq.pushes.length { s with reports := { s.reports with failedAtPq := n } } →
      exec .failedAtPq s = .next u.arbitrate ∧ u.pq.pushes = [])
    ∧ State.cutHeads 0 s = s ∧ (∀ n, State.cutHeads (n + 1) s = State.cutHeads n s.cutHead)
    ∧ ∀ (p : Push) (rest : List Push), s.pq.pushes = p :: rest → s.cutHead = { s with
        pq := ⟨rest⟩
        ia := { s.ia with orderList := s.ia.orderList.erase .push }
        mu := s.mu.counts .pushBytesCut (p.payload.length - p.issued)
        reports := Reports.offering s .pushCut ((if p.broadcast then 256 else 0) + (p.payload.length - p.issued)) s.reports }

/-- LEAVING_UP_AT_XU: each ACTIVE exchange records CUT with the reason unless a fault stands, is abandoned, and becomes READY when
nothing is outstanding. FAILED_AT_XU: each QUEUED exchange records LINK, detail $0005, is abandoned and becomes READY. Every other
record is unchanged; then IA judges.
LEAVING_UP_AT_CU: every BUSY tag is COOLING with its fields kept, and its piece fails with CUT and the reason, in the order of the
tags; then IA judges. LEAVING_UP_AT_RU: every buffer is invalid. LEAVING_UP_AT_IA: the CREDIT and management CPL claims are withdrawn and
the idle timer stops. -/
def Obligations.LinkReportsAreTaken : Prop :=
  (∀ (s : State), s.resetn = true → RecordsOk s.xu →
     (∀ (reason : DownReason) (left : List DownReason), s.reports.leftAtXu = reason :: left →
       ∃ u : State, exec .leavingUpAtXu s = .next u.arbitrate
       ∧ u = { s with
         xu := { s.xu with records := u.xu.records }
         ia := { s.ia with orderList := s.ia.orderList.filter fun m => ∀ i, m = .exchange i → (s.record i).state ≠ .active }
         reports := { s.reports with leftAtXu := left } }
       ∧ ∀ i : RecIx, u.record i =
         if (s.record i).state = .active then { s.record i with
           abandoned := true
           result := if (s.record i).result = .pending then .fault .cut (BitVec.ofNat 16 reason.code) else (s.record i).result
           state := if (s.record i).outstanding = 0 then .ready else .active
           holdTimer := if (s.record i).outstanding = 0 then some (Config.ms s.mu.settings.hold) else (s.record i).holdTimer }
         else s.record i)
     ∧ ∀ n, s.reports.failedAtXu = n + 1 →
       ∃ u : State, exec .failedAtXu s = .next u.arbitrate
       ∧ u = { s with
         xu := { s.xu with records := u.xu.records }
         ia := { s.ia with orderList := s.ia.orderList.filter fun m => ∀ i, m = .exchange i → (s.record i).state ≠ .queued }
         reports := { s.reports with failedAtXu := n } }
       ∧ ∀ i : RecIx, u.record i =
         if (s.record i).state = .queued then { s.record i with
           abandoned := true, result := .fault .link 0x0005, state := .ready, holdTimer := some (Config.ms s.mu.settings.hold) }
         else s.record i)
  ∧ (∀ (s : State) (reason : DownReason) (left : List DownReason), s.resetn = true →
       (s.reports.leftAtCu = reason :: left → exec .leavingUpAtCu s = .next (State.arbitrate { s with
         cu := ⟨mapIx (fun _ t => if t.state = .busy then
           { t with state := .cooling, timer := .coolDown (Config.ms t.timeout) } else t) s.cu.tags⟩
         reports := { s.reports with
           leftAtCu := left
           pieceResults := s.reports.pieceResults ++ (List.finRange 32).filterMap fun t =>
             if (s.tag t).state = .busy then
               (s.tag t).owner.map fun i => (i, PieceResult.failure .cut (BitVec.ofNat 16 reason.code))
             else none } }))
       ∧ (s.reports.leftAtRu = reason :: left → exec .leavingUpAtRu s = .next { s with
         ru := ⟨mapIx (fun _ b => if b.valid then Buffer.invalid else b) s.ru.buffers, []⟩
         reports := { s.reports with leftAtRu := left } })
       ∧ (s.reports.leftAtIa = reason :: left → exec .leavingUpAtIa s = .next { s with
         ia := { s.ia with creditClaim := false, cplClaims := [], idleTimer := none }
         reports := { s.reports with leftAtIa := left } }))

/-! ### Issue order, carving and encodings -/

/-- IA's claims: a packet in SENDING is not broken off; in NEGOTIATE a CAPACK that echoes the accepted far CAP goes before a CAP, at
class 1; in UP a CREDIT with the granted limits goes before the oldest management CPL, and that before a piece; nothing is sent in
another state, or with no claim and no eligible member. -/
def Obligations.ClaimsGoInOrder : Prop :=
  ∀ s : State,
    ((∃ p rate effect, s.ia.transmitter = .sending p rate effect) → s.arbitrate = s)
    ∧ (s.tp.link ≠ .negotiate → s.tp.link ≠ .up → s.arbitrate = s)
    ∧ (s.ia.transmitter = .free → s.tp.link = .negotiate →
      (∀ f, s.ia.capackClaim = true → s.tp.farCap = some f → s.arbitrate = { s with ia := { s.ia with
        capackClaim := false, idleTimer := none, transmitter := .sending (.capack f) 1 (.capack true) } })
      ∧ (s.ia.capackClaim = false → s.ia.capClaim = true → s.arbitrate = { s with ia := { s.ia with
        capClaim := false, idleTimer := none, transmitter := .sending (.cap ⟨4, 512, 2, 0, 0⟩) 1 .nothing } })
      ∧ (s.ia.capackClaim = false → s.ia.capClaim = false → s.arbitrate = s))
    ∧ (s.ia.transmitter = .free → s.tp.link = .up →
      (s.ia.creditClaim = true → s.arbitrate = { s with ia := { s.ia with
        creditClaim := false, idleTimer := none
        transmitter := .sending (.credit s.tp.grantedRequest s.tp.grantedPush) s.tp.rateClass .nothing } })
      ∧ (∀ c rest, s.ia.creditClaim = false → s.ia.cplClaims = c :: rest → s.arbitrate = { s with ia := { s.ia with
        cplClaims := rest, idleTimer := none
        transmitter := .sending c.packet s.tp.rateClass (.managementCpl c.slot c.held c.segreset) } })
      ∧ (s.ia.creditClaim = false → s.ia.cplClaims = [] → s.pick = none → s.arbitrate = s))

/-- What IA chooses (R82 to R85): the earliest member that no earlier member forbids to pass and whose conditions hold, wherever there
is one; a READ or WRITE goes ahead of an earlier push only when RELAXED and of another window, a PUSH never, and no WRITE ahead of an
earlier WRITE. The conditions: the link UP, the slot judged LIVE, and a push credit, or a FREE tag, a BUSY count below the slot's limit
and a request credit (log 12). -/
def Obligations.PickObeysTheOrder : Prop :=
  (∀ (s : State) (v : MemberView), s.pick = some v ↔ ∃ before after : List MemberView,
    s.members = before ++ v :: after
      ∧ (∀ u ∈ before, mayPass v u = true) ∧ s.resourcesFor v = true
      ∧ ∀ (first : List MemberView) (u : MemberView) (more : List MemberView), before = first ++ u :: more →
        ¬((∀ w ∈ first, mayPass u w = true) ∧ s.resourcesFor u = true))
  ∧ (∀ (s : State) (v : MemberView), s.resourcesFor v = true ↔
      s.tp.link = .up
      ∧ ((look s.tu.nodes v.slot).state = .live ∨ (look s.tu.nodes v.slot).state = .quiet ∧ v.slot ∈ s.reports.quietAtIa)
      ∧ (v.kind = .push → s.tp.pushLimit ≠ s.tp.pushConsumed)
      ∧ (v.kind ≠ .push → s.tp.requestLimit ≠ s.tp.requestConsumed ∧ (∃ t, (s.tag t).state = .free)
        ∧ s.cu.busyCount v.slot < (look s.tu.nodes v.slot).limit.toNat))
  ∧ (∀ s : State, s.members = memberViews s.xu.records s.ia.orderList s.pq.pushes)
  ∧ (∀ (records : Vector Exchange 8) (i : RecIx) (p : Push) (order : List Member) (pushes : List Push),
      memberViews records [] pushes = []
      ∧ memberViews records (.exchange i :: order) pushes =
        ⟨.exchange i, (match (look records i).kind with | .read => .read | .write => .write), (look records i).window,
          (look records i).relaxed, (look records i).slot⟩ :: memberViews records order pushes
      ∧ memberViews records (.push :: order) (p :: pushes) =
        ⟨.push, .push, p.window, false, p.slot⟩ :: memberViews records order pushes)
  ∧ ∀ later earlier : MemberView, mayPass later earlier =
    match later.kind, earlier.kind with
    | .push, .push => false
    | .write, .write => false
    | .push, _ => true
    | _, .push => later.relaxed && later.window != earlier.window
    | _, _ => true

/-- The issue of a piece: carved up to the next multiple of the effective piece size or what is left; an exchange's piece takes the
lowest FREE tag and a request credit, a push's piece a push credit; the packet goes to the node ID held now; a member with nothing
left leaves the Order List, a push its queue, and each push that then becomes the head is cut if its slot is QUIET. -/
def Obligations.PieceIsIssued : Prop :=
  ∀ (s : State), s.resetn = true → s.tp.link = .up → s.ia.transmitter = .free → s.ia.creditClaim = false → s.ia.cplClaims = [] →
    (∀ (v : MemberView) (i : RecIx) (t : TagIx) (e : Exchange) (start : FabricAddr) (length : Nat) (node : Node), s.pick = some v →
      v.member = .exchange i → (s.tag t).state = .free → (∀ j, j < t → (s.tag j).state ≠ .free) → e = s.record i →
      node = look s.tu.nodes e.slot → start = e.addr + BitVec.ofNat 40 e.nextOffset →
      length = min (min node.pieceSize.toNat s.tp.pieceMax.toNat - start.toNat % min node.pieceSize.toNat s.tp.pieceMax.toNat)
        (e.issueLength - e.nextOffset) →
      s.arbitrate = { s with
        tp := { s.tp with requestConsumed := s.tp.requestConsumed + 1 }
        cu := ⟨put s.cu.tags t ⟨.busy, some i, e.nextOffset, length, e.kind, 0, e.slot, node.timeout,
          .completion (Config.ms node.timeout)⟩⟩
        xu := { s.xu with
          records := put s.xu.records i { e with
            state := if e.state = .queued then .active else e.state
            nextOffset := e.nextOffset + length, piecesIssued := e.piecesIssued + 1, outstanding := e.outstanding + 1 } }
        ia := { s.ia with
          orderList := if e.nextOffset + length < e.issueLength ∧ e.abandoned = false then s.ia.orderList
            else s.ia.orderList.filter (· != .exchange i)
          idleTimer := none
          transmitter := .sending (match e.kind with
            | .read => .rqr (BitVec.ofNat 5 t.val) node.nodeId s.tp.nodeId start (BitVec.ofNat 16 length)
            | .write => .rqw (BitVec.ofNat 5 t.val) node.nodeId s.tp.nodeId start (slice e.payload e.nextOffset length))
            s.tp.rateClass .nothing } })
    ∧ ∀ (v : MemberView) (p : Push) (rest : List Push) (start : FabricAddr) (length : Nat) (node : Node) (u : State),
      s.pick = some v → v.member = .push → s.pq.pushes = p :: rest → node = look s.tu.nodes p.slot →
      start = p.addr + BitVec.ofNat 40 p.issued →
      length = min (min node.pieceSize.toNat s.tp.pieceMax.toNat - start.toNat % min node.pieceSize.toNat s.tp.pieceMax.toNat)
        (p.payload.length - p.issued) →
      u = { s with
        tp := { s.tp with pushConsumed := s.tp.pushConsumed + 1 }
        ia := { s.ia with
          idleTimer := none
          transmitter := .sending (.psh node.nodeId s.tp.nodeId start (slice p.payload p.issued length)) s.tp.rateClass .nothing } } →
      (p.issued + length < p.payload.length →
        s.arbitrate = { u with pq := ⟨{ p with issued := p.issued + length } :: rest⟩ })
      ∧ ∀ cut kept : List Push, p.payload.length ≤ p.issued + length → rest = cut ++ kept →
        (∀ q ∈ cut, (look s.tu.nodes q.slot).state = .quiet) → (∀ q ∈ kept.head?, (look s.tu.nodes q.slot).state ≠ .quiet) →
        s.arbitrate = State.cutHeads cut.length
          { u with pq := ⟨rest⟩, ia := { u.ia with orderList := s.ia.orderList.erase .push } }

/-- Encoding: the bytes of every packet of good form, trailer included, parse back to that packet, and what arrives as those bytes is
the command of its type. -/
def Obligations.PacketsParseBack : Prop :=
  ∀ p : Packet, p.formOk = true → parsePacket p.bytes = some p ∧ commandOfPacket p.bytes =
    match p with
    | .cap f => .cap f
    | .capack f => .capack f
    | .credit a b => .credit a b
    | .keep => .keep
    | .rqr tag dest source addr count => .incomingManagementRequest tag dest source addr (.rqr count)
    | .rqw tag dest source addr payload => .incomingManagementRequest tag dest source addr (.rqw payload)
    | .psh dest source addr payload => .psh dest source addr payload
    | .cpl dest tag status remaining payload => .cpl dest tag.toFin status remaining payload
    | .ntc source dest code arg => .ntc source dest code arg

/-- Encoding: an accepted window image with valid set reads back byte for byte; an accepted LIVE node image reads back in every byte but
those of in use, count and busy tags, which are the slot's; the in-use byte is 1 or 0 (log 29). -/
def Obligations.ImagesReadBack : Prop :=
  (∀ (u : TranslationUnit) (i : WinIx) (image : List Byte), image.length = 32 → (byteAt image 0).getLsbD 0 = true →
    u.windowRefusal i image = none → (acceptedWindow image).image = image)
  ∧ ∀ (s : State) (i : SlotIx) (image : List Byte) (inUse : Bool) (busy : Nat), image.length = 16 → byteAt image 0 ≠ 0 →
    s.nodeRefusal i image = none →
    (acceptedNode image).image inUse busy
      = [1, if inUse then 1 else 0] ++ slice image 2 7 ++ [0, BitVec.ofNat 8 busy, 0, 0, 0, 0, 0]

/-! ### What every step keeps -/

/-- Every step keeps the Notice Queue's laws: at most 32 entries, consecutive serials, counts 1..255, only the head sent, one unsent
entry for a key, and the overrun flag never set while the queue is empty.
Every step keeps the Push Queue's laws: at most 16 pushes and 1024 bytes, each push 1..240 bytes with some unissued, only the head
started. -/
def Obligations.NoticesAndPushesKept : Prop :=
  (∀ s t : State, NoticesOk s.nu → OverrunOk s.nu → step s = .next t → NoticesOk t.nu ∧ OverrunOk t.nu)
  ∧ (∀ s t : State, PushesOk s.pq → step s = .next t → PushesOk t.pq)

/-- Every step keeps: at most one record holds any xno in a state other than FREE.
Every step keeps the Order List's law, that it holds exactly the queued pushes and the QUEUED or ACTIVE exchanges with unissued
pieces, each once, and the answer ranks' law, that they are those of the ANSWERED records, each once. -/
def Obligations.XnosAndOrderListKept : Prop :=
  (∀ s t : State, XnosOk s.xu → step s = .next t → XnosOk t.xu)
  ∧ (∀ s t : State, OrderListOk s → AnswerRanksOk s.xu → step s = .next t → OrderListOk t ∧ AnswerRanksOk t.xu)

/-- Every step keeps the fields of every record in agreement with its state. -/
def Obligations.RecordsKept : Prop :=
  ∀ s t : State, OrderListOk s → AnswerRanksOk s.xu → RecordsOk s.xu → step s = .next t → RecordsOk t.xu

/-- Every step keeps: a record's outstanding count is the number of its BUSY tags and of its piece results not yet taken.
Every step keeps the fields of every tag in agreement with its state, and each slot's BUSY count within 0..8. -/
def Obligations.OutstandingAndTagsKept : Prop :=
  (∀ s t : State, OrderListOk s → AnswerRanksOk s.xu → OutstandingOk s → step s = .next t → OutstandingOk t)
  ∧ ((∀ s t : State, TagsOk s.cu → step s = .next t → TagsOk t.cu)
     ∧ ∀ s t : State, NodesOk s.tu → BusyCountsOk s → step s = .next t → BusyCountsOk t)

/-- Every step keeps: an exchange is carved into at most 5 pieces. -/
def Obligations.AtMostFivePieces : Prop :=
  (∀ s t : State, OrderListOk s → AnswerRanksOk s.xu → RecordsOk s.xu → NodesOk s.tu → NegotiationOk s → CarvingOk s.xu →
    step s = .next t → CarvingOk t.xu)
  ∧ ∀ u : ExchangeUnit, CarvingOk u → ∀ i : RecIx, (look u.records i).piecesIssued ≤ 5

/-- Every step keeps: when the transmitter is FREE, nothing that could be sent waits. -/
def Obligations.NothingSendableWaits : Prop :=
  ∀ s t : State, OrderListOk s → AnswerRanksOk s.xu → NothingWaits s → step s = .next t → NothingWaits t

/-- Every step keeps the two relations of the tables, the windows' units disjoint, and every node slot's fields in their ranges. -/
def Obligations.TablesKept : Prop :=
  ∀ s t : State, RelationsOk s.tu → NodesOk s.tu → step s = .next t → RelationsOk t.tu ∧ NodesOk t.tu

/-- Every step keeps the use ranks those of the valid buffers, each once, and an invalid buffer empty.
Every step keeps the settings in their ranges, and the assembler in HUNT while the transmitter is in SEND. -/
def Obligations.BuffersSettingsAndLineKept : Prop :=
  (∀ s t : State, BuffersOk s.ru → step s = .next t → BuffersOk t.ru)
  ∧ ((∀ s t : State, SettingsOk s.mu.settings → step s = .next t → SettingsOk t.mu.settings)
     ∧ ∀ s t : State, LineOk s.lp → step s = .next t → LineOk t.lp)

/-- Every step keeps: TP's timers run exactly in their link states; the outgoing credits are 0 outside SETTLE and UP; negotiated values
are in range. -/
def Obligations.LinkKept : Prop :=
  ∀ s t : State, LinkTimersOk s → CreditsOk s → NegotiationOk s → step s = .next t →
    LinkTimersOk t ∧ CreditsOk t ∧ NegotiationOk t

/-- State.reset keeps every law above, and is what POWER_ON_RESET leaves with the straps and REFOK of Config (log 1). -/
def Obligations.ResetKeepsEveryLaw : Prop :=
  NoticesOk State.reset.nu ∧ OverrunOk State.reset.nu ∧ PushesOk State.reset.pq ∧ XnosOk State.reset.xu
    ∧ AnswerRanksOk State.reset.xu ∧ OrderListOk State.reset ∧ RecordsOk State.reset.xu ∧ OutstandingOk State.reset
    ∧ CarvingOk State.reset.xu ∧ NothingWaits State.reset ∧ TagsOk State.reset.cu ∧ BusyCountsOk State.reset
    ∧ NodesOk State.reset.tu ∧ RelationsOk State.reset.tu ∧ BuffersOk State.reset.ru ∧ LinkTimersOk State.reset
    ∧ CreditsOk State.reset ∧ NegotiationOk State.reset ∧ SettingsOk State.reset.mu.settings ∧ LineOk State.reset.lp
    ∧ exec (.powerOnReset 12 3 true) State.reset = .next State.reset
end

