-- ==== Sys2Proof/Laws/Bytes.lean ====
section
/-! SUPPORT. Numbers as bytes: lengths, and a number read back from its bytes. -/

namespace Sys2Proof.Machine

@[simp] theorem beBytes_length (n v : Nat) : (beBytes n v).length = n := by
  induction n generalizing v with
  | zero => rfl
  | succ n ih => simp [beBytes, ih]

theorem beNat_append (a b : List Byte) : beNat (a ++ b) = beNat a * 256 ^ b.length + beNat b := by
  induction a with
  | nil => simp [beNat]
  | cons x xs ih => simp only [List.cons_append, beNat, ih, List.length_append]; ring

/-- A number below 256 ^ n is read back from its n bytes. -/
theorem beNat_beBytes (n v : Nat) (h : v < 256 ^ n) : beNat (beBytes n v) = v := by
  induction n generalizing v with
  | zero => simp at h; simp [h, beBytes, beNat]
  | succ n ih =>
    have : v / 256 < 256 ^ n := by
      rw [Nat.div_lt_iff_lt_mul (by decide)]
      simpa [Nat.pow_succ] using h
    rw [beBytes, beNat_append, ih _ this]
    simp [beNat]
    omega

theorem slice_length (b : List Byte) (i n : Nat) : (slice b i n).length = min n (b.length - i) := by simp [slice]

/-- Part of a part. -/
theorem slice_slice (b : List Byte) (i n k m : Nat) (h : k + m ≤ n) : slice (slice b i n) k m = slice b (i + k) m := by
  simp only [slice, List.drop_take, List.take_take, List.drop_drop]
  rw [min_eq_left (by omega)]

/-- Two parts that meet. -/
theorem slice_join (b : List Byte) (i n m : Nat) : slice b i n ++ slice b (i + n) m = slice b i (n + m) := by
  simp only [slice, ← List.drop_drop, List.take_add]

/-- The i-th part of a list laid out in parts of k bytes. -/
theorem slice_flatMap {α : Type} (f : α → List Byte) (k : Nat) (xs : List α) (h : ∀ x ∈ xs, (f x).length = k) (i : Nat)
    (hi : i < xs.length) : slice (xs.flatMap f) (k * i) k = f xs[i] := by
  induction xs generalizing i with
  | nil => simp at hi
  | cons x xs ih =>
    cases i with
    | zero => simp [slice, h x (by simp)]
    | succ i =>
      have step := ih (fun y hy => h y (by simp [hy])) i (by simpa using hi)
      simp only [slice, List.flatMap_cons, List.drop_append] at step ⊢
      rw [h x (by simp),
        List.drop_of_length_le (by rw [h x (by simp)]; exact Nat.le_mul_of_pos_right _ (by omega)),
        Nat.mul_add, Nat.mul_one, Nat.add_sub_cancel]
      simpa using step

theorem beNat_lt (b : List Byte) : beNat b < 256 ^ b.length := by
  induction b with
  | nil => simp [beNat]
  | cons x xs ih =>
    simp only [beNat, List.length_cons, pow_succ]
    have := x.isLt
    nlinarith [Nat.mul_le_mul_right (256 ^ xs.length) (show x.toNat + 1 ≤ 256 by omega)]

theorem beNat_slice_lt (b : List Byte) (i n : Nat) : beNat (slice b i n) < 256 ^ n :=
  lt_of_lt_of_le (beNat_lt _) (Nat.pow_le_pow_right (by norm_num) (by rw [slice_length]; exact min_le_left _ _))

/-- The bytes of a slice, zeros apart, are those at its places. -/
theorem mem_slice (b : List Byte) (i n : Nat) {x : Byte} (hx : x ≠ 0) :
    x ∈ slice b i n ↔ ∃ k, i ≤ k ∧ k < i + n ∧ byteAt b k = x := by
  simp only [slice, List.mem_iff_getElem?, byteAt, List.getD_eq_getElem?_getD]
  constructor
  · rintro ⟨k, hk⟩
    rw [List.getElem?_take] at hk
    split at hk
    · rw [List.getElem?_drop] at hk
      exact ⟨i + k, by omega, by omega, by simp [hk]⟩
    · simp at hk
  · rintro ⟨k, h1, h2, h3⟩
    refine ⟨k - i, ?_⟩
    rw [List.getElem?_take, if_pos (by omega), List.getElem?_drop, show i + (k - i) = k by omega]
    cases h : b[k]? with
    | none => simp only [h, Option.getD_none] at h3; exact absurd h3.symm hx
    | some y => simp only [h, Option.getD_some] at h3; rw [h3]

end Sys2Proof.Machine
end

