-- ==== Sys2Proof/Laws/Characters.lean ====
section
/-! SUPPORT. What LP's bit receiver makes of idle time, of one character, and of a line held low. -/

namespace Sys2Proof.Machine

/-- Eight data bits spell their byte. -/
@[simp] theorem byteOfBits_dataBits (b : Byte) : byteOfBits (dataBits b) = b := by revert b; decide

@[simp] theorem dataBits_length (b : Byte) : (dataBits b).length = 8 := by simp [dataBits]

/-- Idle time brings nothing. -/
@[simp] theorem LineReceiver.commands_idle (n : Nat) (rest : List Bool) :
    LineReceiver.waiting.commands (List.replicate n true ++ rest) = LineReceiver.waiting.commands rest := by
  induction n with
  | zero => rfl
  | succ n ih => simpa [List.replicate_succ, LineReceiver.commands, LineReceiver.hear] using ih

/-- Data bits are gathered up to the eighth. -/
theorem LineReceiver.commands_gather {heard bits : List Bool} (rest : List Bool) (h : heard.length + bits.length ≤ 8) :
    (LineReceiver.inCharacter heard).commands (bits ++ rest) = (LineReceiver.inCharacter (heard ++ bits)).commands rest := by
  induction bits generalizing heard with
  | nil => simp
  | cons b bits ih =>
    have hb : heard.length < 8 := by simp only [List.length_cons] at h; omega
    simpa [LineReceiver.commands, LineReceiver.hear, hb] using
      ih (heard := heard ++ [b]) (by simp only [List.length_append, List.length_cons, List.length_nil] at h ⊢; omega)

/-- The line held low after a framing error brings nothing more. -/
theorem LineReceiver.commands_heldLow (n : Nat) (rest : List Bool) :
    LineReceiver.heldLow.commands (List.replicate n false ++ true :: rest) = LineReceiver.waiting.commands rest := by
  induction n with
  | zero => rfl
  | succ n ih => simpa [List.replicate_succ, LineReceiver.commands, LineReceiver.hear] using ih

/-- A start bit and eight data bits stand before the stop bit. -/
theorem LineReceiver.commands_started {bits : List Bool} (rest : List Bool) (h : bits.length = 8) :
    LineReceiver.waiting.commands (false :: (bits ++ rest)) = (LineReceiver.inCharacter bits).commands rest := by
  have start : LineReceiver.waiting.commands (false :: (bits ++ rest)) = (LineReceiver.inCharacter []).commands (bits ++ rest) := by
    simp [LineReceiver.commands, LineReceiver.hear]
  rw [start, LineReceiver.commands_gather rest (by simp [h]), List.nil_append]

/-- A high stop bit makes the character good. -/
theorem LineReceiver.commands_stop {bits : List Bool} (rest : List Bool) (h : bits.length = 8) :
    (LineReceiver.inCharacter bits).commands (true :: rest)
      = .goodCharacter (byteOfBits bits) :: LineReceiver.waiting.commands rest := by
  simp [LineReceiver.commands, LineReceiver.hear, h]

/-- A low stop bit is a framing error. -/
theorem LineReceiver.commands_lowStop {bits : List Bool} (rest : List Bool) (h : bits.length = 8) :
    (LineReceiver.inCharacter bits).commands (false :: rest) = .framingError :: LineReceiver.heldLow.commands rest := by
  simp [LineReceiver.commands, LineReceiver.hear, h]

/-- A character is heard as itself. -/
@[simp] theorem LineReceiver.commands_character (b : Byte) (rest : List Bool) :
    LineReceiver.waiting.commands (characterLevels b ++ rest) = .goodCharacter b :: LineReceiver.waiting.commands rest := by
  have h := LineReceiver.commands_stop rest (dataBits_length b)
  rw [byteOfBits_dataBits] at h
  simpa [characterLevels] using (LineReceiver.commands_started (true :: rest) (dataBits_length b)).trans h

end Sys2Proof.Machine
end

