-- ==== Sys2Proof/Laws/State.lean ====
section
/-! SUPPORT. One lemma per field of State and per update of a block, so that no proof unfolds a record update. -/

namespace Sys2Proof.Machine

section
variable (f : LinePort → LinePort) (s : State)
@[simp] theorem State.onLp_resetn : (s.onLp f).resetn = s.resetn := rfl
@[simp] theorem State.onLp_refok : (s.onLp f).refok = s.refok := rfl
@[simp] theorem State.onLp_lp : (s.onLp f).lp = f s.lp := rfl
@[simp] theorem State.onLp_xu : (s.onLp f).xu = s.xu := rfl
@[simp] theorem State.onLp_tu : (s.onLp f).tu = s.tu := rfl
@[simp] theorem State.onLp_pq : (s.onLp f).pq = s.pq := rfl
@[simp] theorem State.onLp_ia : (s.onLp f).ia = s.ia := rfl
@[simp] theorem State.onLp_cu : (s.onLp f).cu = s.cu := rfl
@[simp] theorem State.onLp_ru : (s.onLp f).ru = s.ru := rfl
@[simp] theorem State.onLp_nu : (s.onLp f).nu = s.nu := rfl
@[simp] theorem State.onLp_tp : (s.onLp f).tp = s.tp := rfl
@[simp] theorem State.onLp_mu : (s.onLp f).mu = s.mu := rfl
@[simp] theorem State.onLp_reports : (s.onLp f).reports = s.reports := rfl
@[simp] theorem State.onLp_pending : (s.onLp f).pending = s.pending := rfl
end

section
variable (f : ExchangeUnit → ExchangeUnit) (s : State)
@[simp] theorem State.onXu_resetn : (s.onXu f).resetn = s.resetn := rfl
@[simp] theorem State.onXu_refok : (s.onXu f).refok = s.refok := rfl
@[simp] theorem State.onXu_lp : (s.onXu f).lp = s.lp := rfl
@[simp] theorem State.onXu_xu : (s.onXu f).xu = f s.xu := rfl
@[simp] theorem State.onXu_tu : (s.onXu f).tu = s.tu := rfl
@[simp] theorem State.onXu_pq : (s.onXu f).pq = s.pq := rfl
@[simp] theorem State.onXu_ia : (s.onXu f).ia = s.ia := rfl
@[simp] theorem State.onXu_cu : (s.onXu f).cu = s.cu := rfl
@[simp] theorem State.onXu_ru : (s.onXu f).ru = s.ru := rfl
@[simp] theorem State.onXu_nu : (s.onXu f).nu = s.nu := rfl
@[simp] theorem State.onXu_tp : (s.onXu f).tp = s.tp := rfl
@[simp] theorem State.onXu_mu : (s.onXu f).mu = s.mu := rfl
@[simp] theorem State.onXu_reports : (s.onXu f).reports = s.reports := rfl
@[simp] theorem State.onXu_pending : (s.onXu f).pending = s.pending := rfl
end

section
variable (f : TranslationUnit → TranslationUnit) (s : State)
@[simp] theorem State.onTu_resetn : (s.onTu f).resetn = s.resetn := rfl
@[simp] theorem State.onTu_refok : (s.onTu f).refok = s.refok := rfl
@[simp] theorem State.onTu_lp : (s.onTu f).lp = s.lp := rfl
@[simp] theorem State.onTu_xu : (s.onTu f).xu = s.xu := rfl
@[simp] theorem State.onTu_tu : (s.onTu f).tu = f s.tu := rfl
@[simp] theorem State.onTu_pq : (s.onTu f).pq = s.pq := rfl
@[simp] theorem State.onTu_ia : (s.onTu f).ia = s.ia := rfl
@[simp] theorem State.onTu_cu : (s.onTu f).cu = s.cu := rfl
@[simp] theorem State.onTu_ru : (s.onTu f).ru = s.ru := rfl
@[simp] theorem State.onTu_nu : (s.onTu f).nu = s.nu := rfl
@[simp] theorem State.onTu_tp : (s.onTu f).tp = s.tp := rfl
@[simp] theorem State.onTu_mu : (s.onTu f).mu = s.mu := rfl
@[simp] theorem State.onTu_reports : (s.onTu f).reports = s.reports := rfl
@[simp] theorem State.onTu_pending : (s.onTu f).pending = s.pending := rfl
end

section
variable (f : PushQueue → PushQueue) (s : State)
@[simp] theorem State.onPq_resetn : (s.onPq f).resetn = s.resetn := rfl
@[simp] theorem State.onPq_refok : (s.onPq f).refok = s.refok := rfl
@[simp] theorem State.onPq_lp : (s.onPq f).lp = s.lp := rfl
@[simp] theorem State.onPq_xu : (s.onPq f).xu = s.xu := rfl
@[simp] theorem State.onPq_tu : (s.onPq f).tu = s.tu := rfl
@[simp] theorem State.onPq_pq : (s.onPq f).pq = f s.pq := rfl
@[simp] theorem State.onPq_ia : (s.onPq f).ia = s.ia := rfl
@[simp] theorem State.onPq_cu : (s.onPq f).cu = s.cu := rfl
@[simp] theorem State.onPq_ru : (s.onPq f).ru = s.ru := rfl
@[simp] theorem State.onPq_nu : (s.onPq f).nu = s.nu := rfl
@[simp] theorem State.onPq_tp : (s.onPq f).tp = s.tp := rfl
@[simp] theorem State.onPq_mu : (s.onPq f).mu = s.mu := rfl
@[simp] theorem State.onPq_reports : (s.onPq f).reports = s.reports := rfl
@[simp] theorem State.onPq_pending : (s.onPq f).pending = s.pending := rfl
end

section
variable (f : IssueArbiter → IssueArbiter) (s : State)
@[simp] theorem State.onIa_resetn : (s.onIa f).resetn = s.resetn := rfl
@[simp] theorem State.onIa_refok : (s.onIa f).refok = s.refok := rfl
@[simp] theorem State.onIa_lp : (s.onIa f).lp = s.lp := rfl
@[simp] theorem State.onIa_xu : (s.onIa f).xu = s.xu := rfl
@[simp] theorem State.onIa_tu : (s.onIa f).tu = s.tu := rfl
@[simp] theorem State.onIa_pq : (s.onIa f).pq = s.pq := rfl
@[simp] theorem State.onIa_ia : (s.onIa f).ia = f s.ia := rfl
@[simp] theorem State.onIa_cu : (s.onIa f).cu = s.cu := rfl
@[simp] theorem State.onIa_ru : (s.onIa f).ru = s.ru := rfl
@[simp] theorem State.onIa_nu : (s.onIa f).nu = s.nu := rfl
@[simp] theorem State.onIa_tp : (s.onIa f).tp = s.tp := rfl
@[simp] theorem State.onIa_mu : (s.onIa f).mu = s.mu := rfl
@[simp] theorem State.onIa_reports : (s.onIa f).reports = s.reports := rfl
@[simp] theorem State.onIa_pending : (s.onIa f).pending = s.pending := rfl
end

section
variable (f : CompletionUnit → CompletionUnit) (s : State)
@[simp] theorem State.onCu_resetn : (s.onCu f).resetn = s.resetn := rfl
@[simp] theorem State.onCu_refok : (s.onCu f).refok = s.refok := rfl
@[simp] theorem State.onCu_lp : (s.onCu f).lp = s.lp := rfl
@[simp] theorem State.onCu_xu : (s.onCu f).xu = s.xu := rfl
@[simp] theorem State.onCu_tu : (s.onCu f).tu = s.tu := rfl
@[simp] theorem State.onCu_pq : (s.onCu f).pq = s.pq := rfl
@[simp] theorem State.onCu_ia : (s.onCu f).ia = s.ia := rfl
@[simp] theorem State.onCu_cu : (s.onCu f).cu = f s.cu := rfl
@[simp] theorem State.onCu_ru : (s.onCu f).ru = s.ru := rfl
@[simp] theorem State.onCu_nu : (s.onCu f).nu = s.nu := rfl
@[simp] theorem State.onCu_tp : (s.onCu f).tp = s.tp := rfl
@[simp] theorem State.onCu_mu : (s.onCu f).mu = s.mu := rfl
@[simp] theorem State.onCu_reports : (s.onCu f).reports = s.reports := rfl
@[simp] theorem State.onCu_pending : (s.onCu f).pending = s.pending := rfl
end

section
variable (f : RetentionUnit → RetentionUnit) (s : State)
@[simp] theorem State.onRu_resetn : (s.onRu f).resetn = s.resetn := rfl
@[simp] theorem State.onRu_refok : (s.onRu f).refok = s.refok := rfl
@[simp] theorem State.onRu_lp : (s.onRu f).lp = s.lp := rfl
@[simp] theorem State.onRu_xu : (s.onRu f).xu = s.xu := rfl
@[simp] theorem State.onRu_tu : (s.onRu f).tu = s.tu := rfl
@[simp] theorem State.onRu_pq : (s.onRu f).pq = s.pq := rfl
@[simp] theorem State.onRu_ia : (s.onRu f).ia = s.ia := rfl
@[simp] theorem State.onRu_cu : (s.onRu f).cu = s.cu := rfl
@[simp] theorem State.onRu_ru : (s.onRu f).ru = f s.ru := rfl
@[simp] theorem State.onRu_nu : (s.onRu f).nu = s.nu := rfl
@[simp] theorem State.onRu_tp : (s.onRu f).tp = s.tp := rfl
@[simp] theorem State.onRu_mu : (s.onRu f).mu = s.mu := rfl
@[simp] theorem State.onRu_reports : (s.onRu f).reports = s.reports := rfl
@[simp] theorem State.onRu_pending : (s.onRu f).pending = s.pending := rfl
end

section
variable (f : NoticeUnit → NoticeUnit) (s : State)
@[simp] theorem State.onNu_resetn : (s.onNu f).resetn = s.resetn := rfl
@[simp] theorem State.onNu_refok : (s.onNu f).refok = s.refok := rfl
@[simp] theorem State.onNu_lp : (s.onNu f).lp = s.lp := rfl
@[simp] theorem State.onNu_xu : (s.onNu f).xu = s.xu := rfl
@[simp] theorem State.onNu_tu : (s.onNu f).tu = s.tu := rfl
@[simp] theorem State.onNu_pq : (s.onNu f).pq = s.pq := rfl
@[simp] theorem State.onNu_ia : (s.onNu f).ia = s.ia := rfl
@[simp] theorem State.onNu_cu : (s.onNu f).cu = s.cu := rfl
@[simp] theorem State.onNu_ru : (s.onNu f).ru = s.ru := rfl
@[simp] theorem State.onNu_nu : (s.onNu f).nu = f s.nu := rfl
@[simp] theorem State.onNu_tp : (s.onNu f).tp = s.tp := rfl
@[simp] theorem State.onNu_mu : (s.onNu f).mu = s.mu := rfl
@[simp] theorem State.onNu_reports : (s.onNu f).reports = s.reports := rfl
@[simp] theorem State.onNu_pending : (s.onNu f).pending = s.pending := rfl
end

section
variable (f : TrunkPort → TrunkPort) (s : State)
@[simp] theorem State.onTp_resetn : (s.onTp f).resetn = s.resetn := rfl
@[simp] theorem State.onTp_refok : (s.onTp f).refok = s.refok := rfl
@[simp] theorem State.onTp_lp : (s.onTp f).lp = s.lp := rfl
@[simp] theorem State.onTp_xu : (s.onTp f).xu = s.xu := rfl
@[simp] theorem State.onTp_tu : (s.onTp f).tu = s.tu := rfl
@[simp] theorem State.onTp_pq : (s.onTp f).pq = s.pq := rfl
@[simp] theorem State.onTp_ia : (s.onTp f).ia = s.ia := rfl
@[simp] theorem State.onTp_cu : (s.onTp f).cu = s.cu := rfl
@[simp] theorem State.onTp_ru : (s.onTp f).ru = s.ru := rfl
@[simp] theorem State.onTp_nu : (s.onTp f).nu = s.nu := rfl
@[simp] theorem State.onTp_tp : (s.onTp f).tp = f s.tp := rfl
@[simp] theorem State.onTp_mu : (s.onTp f).mu = s.mu := rfl
@[simp] theorem State.onTp_reports : (s.onTp f).reports = s.reports := rfl
@[simp] theorem State.onTp_pending : (s.onTp f).pending = s.pending := rfl
end

section
variable (f : ManagementUnit → ManagementUnit) (s : State)
@[simp] theorem State.onMu_resetn : (s.onMu f).resetn = s.resetn := rfl
@[simp] theorem State.onMu_refok : (s.onMu f).refok = s.refok := rfl
@[simp] theorem State.onMu_lp : (s.onMu f).lp = s.lp := rfl
@[simp] theorem State.onMu_xu : (s.onMu f).xu = s.xu := rfl
@[simp] theorem State.onMu_tu : (s.onMu f).tu = s.tu := rfl
@[simp] theorem State.onMu_pq : (s.onMu f).pq = s.pq := rfl
@[simp] theorem State.onMu_ia : (s.onMu f).ia = s.ia := rfl
@[simp] theorem State.onMu_cu : (s.onMu f).cu = s.cu := rfl
@[simp] theorem State.onMu_ru : (s.onMu f).ru = s.ru := rfl
@[simp] theorem State.onMu_nu : (s.onMu f).nu = s.nu := rfl
@[simp] theorem State.onMu_tp : (s.onMu f).tp = s.tp := rfl
@[simp] theorem State.onMu_mu : (s.onMu f).mu = f s.mu := rfl
@[simp] theorem State.onMu_reports : (s.onMu f).reports = s.reports := rfl
@[simp] theorem State.onMu_pending : (s.onMu f).pending = s.pending := rfl
end

section
variable (f : Reports → Reports) (s : State)
@[simp] theorem State.onReports_resetn : (s.onReports f).resetn = s.resetn := rfl
@[simp] theorem State.onReports_refok : (s.onReports f).refok = s.refok := rfl
@[simp] theorem State.onReports_lp : (s.onReports f).lp = s.lp := rfl
@[simp] theorem State.onReports_xu : (s.onReports f).xu = s.xu := rfl
@[simp] theorem State.onReports_tu : (s.onReports f).tu = s.tu := rfl
@[simp] theorem State.onReports_pq : (s.onReports f).pq = s.pq := rfl
@[simp] theorem State.onReports_ia : (s.onReports f).ia = s.ia := rfl
@[simp] theorem State.onReports_cu : (s.onReports f).cu = s.cu := rfl
@[simp] theorem State.onReports_ru : (s.onReports f).ru = s.ru := rfl
@[simp] theorem State.onReports_nu : (s.onReports f).nu = s.nu := rfl
@[simp] theorem State.onReports_tp : (s.onReports f).tp = s.tp := rfl
@[simp] theorem State.onReports_mu : (s.onReports f).mu = s.mu := rfl
@[simp] theorem State.onReports_reports : (s.onReports f).reports = f s.reports := rfl
@[simp] theorem State.onReports_pending : (s.onReports f).pending = s.pending := rfl
end

section
variable (c : Counter) (n : Nat) (s : State)
@[simp] theorem State.bump_resetn : (s.bump c n).resetn = s.resetn := rfl
@[simp] theorem State.bump_refok : (s.bump c n).refok = s.refok := rfl
@[simp] theorem State.bump_lp : (s.bump c n).lp = s.lp := rfl
@[simp] theorem State.bump_xu : (s.bump c n).xu = s.xu := rfl
@[simp] theorem State.bump_tu : (s.bump c n).tu = s.tu := rfl
@[simp] theorem State.bump_pq : (s.bump c n).pq = s.pq := rfl
@[simp] theorem State.bump_ia : (s.bump c n).ia = s.ia := rfl
@[simp] theorem State.bump_cu : (s.bump c n).cu = s.cu := rfl
@[simp] theorem State.bump_ru : (s.bump c n).ru = s.ru := rfl
@[simp] theorem State.bump_nu : (s.bump c n).nu = s.nu := rfl
@[simp] theorem State.bump_tp : (s.bump c n).tp = s.tp := rfl
@[simp] theorem State.bump_mu : (s.bump c n).mu = s.mu.counts c n := rfl
@[simp] theorem State.bump_reports : (s.bump c n).reports = s.reports := rfl
@[simp] theorem State.bump_pending : (s.bump c n).pending = s.pending := rfl
end

/-- An offered self-notice changes the reports alone (R135). -/
theorem State.offer_eq (c : NoticeCode) (n : Nat) (s : State) :
    s.offer c n = { s with reports := Reports.offering s c n s.reports } := by
  unfold State.offer Reports.offering
  split <;> rfl

section
variable (c : NoticeCode) (n : Nat) (s : State)
@[simp] theorem State.offer_resetn : (s.offer c n).resetn = s.resetn := by rw [State.offer_eq]
@[simp] theorem State.offer_refok : (s.offer c n).refok = s.refok := by rw [State.offer_eq]
@[simp] theorem State.offer_lp : (s.offer c n).lp = s.lp := by rw [State.offer_eq]
@[simp] theorem State.offer_xu : (s.offer c n).xu = s.xu := by rw [State.offer_eq]
@[simp] theorem State.offer_tu : (s.offer c n).tu = s.tu := by rw [State.offer_eq]
@[simp] theorem State.offer_pq : (s.offer c n).pq = s.pq := by rw [State.offer_eq]
@[simp] theorem State.offer_ia : (s.offer c n).ia = s.ia := by rw [State.offer_eq]
@[simp] theorem State.offer_cu : (s.offer c n).cu = s.cu := by rw [State.offer_eq]
@[simp] theorem State.offer_ru : (s.offer c n).ru = s.ru := by rw [State.offer_eq]
@[simp] theorem State.offer_nu : (s.offer c n).nu = s.nu := by rw [State.offer_eq]
@[simp] theorem State.offer_tp : (s.offer c n).tp = s.tp := by rw [State.offer_eq]
@[simp] theorem State.offer_mu : (s.offer c n).mu = s.mu := by rw [State.offer_eq]
@[simp] theorem State.offer_reports : (s.offer c n).reports = Reports.offering s c n s.reports := by rw [State.offer_eq]
@[simp] theorem State.offer_pending : (s.offer c n).pending = s.pending := by rw [State.offer_eq]
end

section
variable (i : RecIx) (e : Exchange) (s : State)
@[simp] theorem State.setRecord_resetn : (s.setRecord i e).resetn = s.resetn := rfl
@[simp] theorem State.setRecord_refok : (s.setRecord i e).refok = s.refok := rfl
@[simp] theorem State.setRecord_lp : (s.setRecord i e).lp = s.lp := rfl
@[simp] theorem State.setRecord_xu : (s.setRecord i e).xu = { s.xu with records := put s.xu.records i e } := rfl
@[simp] theorem State.setRecord_tu : (s.setRecord i e).tu = s.tu := rfl
@[simp] theorem State.setRecord_pq : (s.setRecord i e).pq = s.pq := rfl
@[simp] theorem State.setRecord_ia : (s.setRecord i e).ia = s.ia := rfl
@[simp] theorem State.setRecord_cu : (s.setRecord i e).cu = s.cu := rfl
@[simp] theorem State.setRecord_ru : (s.setRecord i e).ru = s.ru := rfl
@[simp] theorem State.setRecord_nu : (s.setRecord i e).nu = s.nu := rfl
@[simp] theorem State.setRecord_tp : (s.setRecord i e).tp = s.tp := rfl
@[simp] theorem State.setRecord_mu : (s.setRecord i e).mu = s.mu := rfl
@[simp] theorem State.setRecord_reports : (s.setRecord i e).reports = s.reports := rfl
@[simp] theorem State.setRecord_pending : (s.setRecord i e).pending = s.pending := rfl
end

section
variable (i : RecIx) (s : State)
@[simp] theorem State.freeRecord_resetn : (s.freeRecord i).resetn = s.resetn := rfl
@[simp] theorem State.freeRecord_refok : (s.freeRecord i).refok = s.refok := rfl
@[simp] theorem State.freeRecord_lp : (s.freeRecord i).lp = s.lp := rfl
@[simp] theorem State.freeRecord_xu : (s.freeRecord i).xu = ⟨put s.xu.records i Exchange.free, s.xu.answerOrder.filter (· != i)⟩ := rfl
@[simp] theorem State.freeRecord_tu : (s.freeRecord i).tu = s.tu := rfl
@[simp] theorem State.freeRecord_pq : (s.freeRecord i).pq = s.pq := rfl
@[simp] theorem State.freeRecord_ia : (s.freeRecord i).ia = s.ia := rfl
@[simp] theorem State.freeRecord_cu : (s.freeRecord i).cu = s.cu := rfl
@[simp] theorem State.freeRecord_ru : (s.freeRecord i).ru = s.ru := rfl
@[simp] theorem State.freeRecord_nu : (s.freeRecord i).nu = s.nu := rfl
@[simp] theorem State.freeRecord_tp : (s.freeRecord i).tp = s.tp := rfl
@[simp] theorem State.freeRecord_mu : (s.freeRecord i).mu = s.mu := rfl
@[simp] theorem State.freeRecord_reports : (s.freeRecord i).reports = s.reports := rfl
@[simp] theorem State.freeRecord_pending : (s.freeRecord i).pending = s.pending := rfl
end

section
variable (i : RecIx) (s : State)
@[simp] theorem State.dropMember_resetn : (s.dropMember i).resetn = s.resetn := rfl
@[simp] theorem State.dropMember_refok : (s.dropMember i).refok = s.refok := rfl
@[simp] theorem State.dropMember_lp : (s.dropMember i).lp = s.lp := rfl
@[simp] theorem State.dropMember_xu : (s.dropMember i).xu = s.xu := rfl
@[simp] theorem State.dropMember_tu : (s.dropMember i).tu = s.tu := rfl
@[simp] theorem State.dropMember_pq : (s.dropMember i).pq = s.pq := rfl
@[simp] theorem State.dropMember_ia : (s.dropMember i).ia = { s.ia with orderList := s.ia.orderList.filter (· != .exchange i) } := rfl
@[simp] theorem State.dropMember_cu : (s.dropMember i).cu = s.cu := rfl
@[simp] theorem State.dropMember_ru : (s.dropMember i).ru = s.ru := rfl
@[simp] theorem State.dropMember_nu : (s.dropMember i).nu = s.nu := rfl
@[simp] theorem State.dropMember_tp : (s.dropMember i).tp = s.tp := rfl
@[simp] theorem State.dropMember_mu : (s.dropMember i).mu = s.mu := rfl
@[simp] theorem State.dropMember_reports : (s.dropMember i).reports = s.reports := rfl
@[simp] theorem State.dropMember_pending : (s.dropMember i).pending = s.pending := rfl
end

section
variable (t : TagIx) (r : Tag) (s : State)
@[simp] theorem State.setTag_resetn : (s.setTag t r).resetn = s.resetn := rfl
@[simp] theorem State.setTag_refok : (s.setTag t r).refok = s.refok := rfl
@[simp] theorem State.setTag_lp : (s.setTag t r).lp = s.lp := rfl
@[simp] theorem State.setTag_xu : (s.setTag t r).xu = s.xu := rfl
@[simp] theorem State.setTag_tu : (s.setTag t r).tu = s.tu := rfl
@[simp] theorem State.setTag_pq : (s.setTag t r).pq = s.pq := rfl
@[simp] theorem State.setTag_ia : (s.setTag t r).ia = s.ia := rfl
@[simp] theorem State.setTag_cu : (s.setTag t r).cu = ⟨put s.cu.tags t r⟩ := rfl
@[simp] theorem State.setTag_ru : (s.setTag t r).ru = s.ru := rfl
@[simp] theorem State.setTag_nu : (s.setTag t r).nu = s.nu := rfl
@[simp] theorem State.setTag_tp : (s.setTag t r).tp = s.tp := rfl
@[simp] theorem State.setTag_mu : (s.setTag t r).mu = s.mu := rfl
@[simp] theorem State.setTag_reports : (s.setTag t r).reports = s.reports := rfl
@[simp] theorem State.setTag_pending : (s.setTag t r).pending = s.pending := rfl
end

section
variable (i : SlotIx) (n : Node) (s : State)
@[simp] theorem State.setNode_resetn : (s.setNode i n).resetn = s.resetn := rfl
@[simp] theorem State.setNode_refok : (s.setNode i n).refok = s.refok := rfl
@[simp] theorem State.setNode_lp : (s.setNode i n).lp = s.lp := rfl
@[simp] theorem State.setNode_xu : (s.setNode i n).xu = s.xu := rfl
@[simp] theorem State.setNode_tu : (s.setNode i n).tu = { s.tu with nodes := put s.tu.nodes i n } := rfl
@[simp] theorem State.setNode_pq : (s.setNode i n).pq = s.pq := rfl
@[simp] theorem State.setNode_ia : (s.setNode i n).ia = s.ia := rfl
@[simp] theorem State.setNode_cu : (s.setNode i n).cu = s.cu := rfl
@[simp] theorem State.setNode_ru : (s.setNode i n).ru = s.ru := rfl
@[simp] theorem State.setNode_nu : (s.setNode i n).nu = s.nu := rfl
@[simp] theorem State.setNode_tp : (s.setNode i n).tp = s.tp := rfl
@[simp] theorem State.setNode_mu : (s.setNode i n).mu = s.mu := rfl
@[simp] theorem State.setNode_reports : (s.setNode i n).reports = s.reports := rfl
@[simp] theorem State.setNode_pending : (s.setNode i n).pending = s.pending := rfl
end

section
variable (r : LineRequest) (k : ReplyKind) (p : List Byte) (b : Bool) (e : ReplyEffect) (s : State)
@[simp] theorem State.answer_resetn : (s.answer r k p b e).resetn = s.resetn := rfl
@[simp] theorem State.answer_refok : (s.answer r k p b e).refok = s.refok := rfl
@[simp] theorem State.answer_xu : (s.answer r k p b e).xu = s.xu := rfl
@[simp] theorem State.answer_tu : (s.answer r k p b e).tu = s.tu := rfl
@[simp] theorem State.answer_pq : (s.answer r k p b e).pq = s.pq := rfl
@[simp] theorem State.answer_ia : (s.answer r k p b e).ia = s.ia := rfl
@[simp] theorem State.answer_cu : (s.answer r k p b e).cu = s.cu := rfl
@[simp] theorem State.answer_ru : (s.answer r k p b e).ru = s.ru := rfl
@[simp] theorem State.answer_nu : (s.answer r k p b e).nu = s.nu := rfl
@[simp] theorem State.answer_tp : (s.answer r k p b e).tp = s.tp := rfl
@[simp] theorem State.answer_mu : (s.answer r k p b e).mu = s.mu := rfl
@[simp] theorem State.answer_reports : (s.answer r k p b e).reports = s.reports := rfl
@[simp] theorem State.answer_pending : (s.answer r k p b e).pending = s.pending := rfl
end

section
variable (p : Packet) (e : PacketEffect) (s : State)
@[simp] theorem State.send_resetn : (s.send p e).resetn = s.resetn := rfl
@[simp] theorem State.send_refok : (s.send p e).refok = s.refok := rfl
@[simp] theorem State.send_lp : (s.send p e).lp = s.lp := rfl
@[simp] theorem State.send_xu : (s.send p e).xu = s.xu := rfl
@[simp] theorem State.send_tu : (s.send p e).tu = s.tu := rfl
@[simp] theorem State.send_pq : (s.send p e).pq = s.pq := rfl
@[simp] theorem State.send_ia : (s.send p e).ia = { s.ia with transmitter := .sending p s.rateInForce e, idleTimer := none } := rfl
@[simp] theorem State.send_cu : (s.send p e).cu = s.cu := rfl
@[simp] theorem State.send_ru : (s.send p e).ru = s.ru := rfl
@[simp] theorem State.send_nu : (s.send p e).nu = s.nu := rfl
@[simp] theorem State.send_tp : (s.send p e).tp = s.tp := rfl
@[simp] theorem State.send_mu : (s.send p e).mu = s.mu := rfl
@[simp] theorem State.send_reports : (s.send p e).reports = s.reports := rfl
@[simp] theorem State.send_pending : (s.send p e).pending = s.pending := rfl
end

section
variable (i : SlotIx) (r : NodeReport) (s : State)
@[simp] theorem State.reportNode_resetn : (s.reportNode i r).resetn = s.resetn := rfl
@[simp] theorem State.reportNode_refok : (s.reportNode i r).refok = s.refok := rfl
@[simp] theorem State.reportNode_lp : (s.reportNode i r).lp = s.lp := rfl
@[simp] theorem State.reportNode_xu : (s.reportNode i r).xu = s.xu := rfl
@[simp] theorem State.reportNode_tu : (s.reportNode i r).tu = s.tu := rfl
@[simp] theorem State.reportNode_pq : (s.reportNode i r).pq = s.pq := rfl
@[simp] theorem State.reportNode_ia : (s.reportNode i r).ia = s.ia := rfl
@[simp] theorem State.reportNode_cu : (s.reportNode i r).cu = s.cu := rfl
@[simp] theorem State.reportNode_ru : (s.reportNode i r).ru = s.ru := rfl
@[simp] theorem State.reportNode_nu : (s.reportNode i r).nu = s.nu := rfl
@[simp] theorem State.reportNode_tp : (s.reportNode i r).tp = s.tp := rfl
@[simp] theorem State.reportNode_mu : (s.reportNode i r).mu = s.mu := rfl
@[simp] theorem State.reportNode_pending : (s.reportNode i r).pending = s.pending := rfl
end

section
variable (s : State)
@[simp] theorem State.frameLost_resetn : (s.frameLost).resetn = s.resetn := rfl
@[simp] theorem State.frameLost_refok : (s.frameLost).refok = s.refok := rfl
@[simp] theorem State.frameLost_lp : (s.frameLost).lp = { s.lp with assembler := .hunt } := rfl
@[simp] theorem State.frameLost_xu : (s.frameLost).xu = s.xu := rfl
@[simp] theorem State.frameLost_tu : (s.frameLost).tu = s.tu := rfl
@[simp] theorem State.frameLost_pq : (s.frameLost).pq = s.pq := rfl
@[simp] theorem State.frameLost_ia : (s.frameLost).ia = s.ia := rfl
@[simp] theorem State.frameLost_cu : (s.frameLost).cu = s.cu := rfl
@[simp] theorem State.frameLost_ru : (s.frameLost).ru = s.ru := rfl
@[simp] theorem State.frameLost_nu : (s.frameLost).nu = s.nu := rfl
@[simp] theorem State.frameLost_tp : (s.frameLost).tp = s.tp := rfl
@[simp] theorem State.frameLost_mu : (s.frameLost).mu = s.mu.counts .lineCrc 1 := rfl
@[simp] theorem State.frameLost_reports : (s.frameLost).reports = s.reports := rfl
@[simp] theorem State.frameLost_pending : (s.frameLost).pending = s.pending := rfl
end

section
variable (s : State)
@[simp] theorem State.headLeaves_resetn : (s.headLeaves).resetn = s.resetn := rfl
@[simp] theorem State.headLeaves_refok : (s.headLeaves).refok = s.refok := rfl
@[simp] theorem State.headLeaves_lp : (s.headLeaves).lp = s.lp := rfl
@[simp] theorem State.headLeaves_xu : (s.headLeaves).xu = s.xu := rfl
@[simp] theorem State.headLeaves_tu : (s.headLeaves).tu = s.tu := rfl
@[simp] theorem State.headLeaves_pq : (s.headLeaves).pq = ⟨s.pq.pushes.tail⟩ := rfl
@[simp] theorem State.headLeaves_ia : (s.headLeaves).ia = { s.ia with orderList := s.ia.orderList.erase .push } := rfl
@[simp] theorem State.headLeaves_cu : (s.headLeaves).cu = s.cu := rfl
@[simp] theorem State.headLeaves_ru : (s.headLeaves).ru = s.ru := rfl
@[simp] theorem State.headLeaves_nu : (s.headLeaves).nu = s.nu := rfl
@[simp] theorem State.headLeaves_tp : (s.headLeaves).tp = s.tp := rfl
@[simp] theorem State.headLeaves_mu : (s.headLeaves).mu = s.mu := rfl
@[simp] theorem State.headLeaves_reports : (s.headLeaves).reports = s.reports := rfl
@[simp] theorem State.headLeaves_pending : (s.headLeaves).pending = s.pending := rfl
end

/-- A counter's update leaves the settings. -/
@[simp] theorem ManagementUnit.counts_settings (c : Counter) (n : Nat) (m : ManagementUnit) :
    (m.counts c n).settings = m.settings := rfl

@[simp] theorem State.whenRunning_true (s : State) (f : State → State) (h : s.resetn = true) : s.whenRunning f = f s := by
  simp [State.whenRunning, h]

@[simp] theorem State.whenRunning_false (s : State) (f : State → State) (h : s.resetn = false) : s.whenRunning f = s := by
  simp [State.whenRunning, h]

end Sys2Proof.Machine
end

