-- ==== Sys2Proof/Laws/Frames.lean ====
section
/-! SUPPORT. What each shared operation can change, said once: `t = { s with b := t.b }` says that t is s in every field but b. -/

namespace Sys2Proof.Machine

/-! ### The head of the Push Queue -/

theorem State.cutHead_frame (s : State) :
    s.cutHead = { s with pq := s.cutHead.pq, ia := s.cutHead.ia, mu := s.cutHead.mu, reports := s.cutHead.reports } := by
  unfold State.cutHead
  split
  · rfl
  · simp only [State.headLeaves, State.offer_eq, State.bump, State.onPq, State.onIa, State.onMu]

theorem State.cutHeads_frame (n : Nat) (s : State) :
    s.cutHeads n = { s with
      pq := (s.cutHeads n).pq, ia := (s.cutHeads n).ia, mu := (s.cutHeads n).mu, reports := (s.cutHeads n).reports } := by
  induction n generalizing s with
  | zero => rfl
  | succ n ih => rw [State.cutHeads, ih s.cutHead, State.cutHead_frame s]

theorem State.cutQuietHeads_frame (n : Nat) (s : State) :
    s.cutQuietHeads n = { s with
      pq := (s.cutQuietHeads n).pq, ia := (s.cutQuietHeads n).ia, mu := (s.cutQuietHeads n).mu
      reports := (s.cutQuietHeads n).reports } := by
  induction n generalizing s with
  | zero => rfl
  | succ n ih =>
    rw [State.cutQuietHeads]
    split
    · rw [ih s.cutHead, State.cutHead_frame s]
    · rfl

theorem State.testHead_frame (s : State) :
    s.testHead = { s with pq := s.testHead.pq, ia := s.testHead.ia, mu := s.testHead.mu, reports := s.testHead.reports } :=
  State.cutQuietHeads_frame _ s

/-- A head whose slot is not QUIET stands. -/
theorem State.testHead_eq_self {s : State} (h : s.headQuiet = false) : s.testHead = s := by
  unfold State.testHead
  cases s.pq.pushes.length <;> simp [State.cutQuietHeads, h]

theorem State.cutHead_pushes (s : State) : s.cutHead.pq.pushes = s.pq.pushes.tail := by
  unfold State.cutHead
  split
  · next h => simp [h]
  · simp only [State.headLeaves, State.offer_eq, State.bump, State.onPq, State.onIa, State.onMu]

/-- The QUIET run at the front of the queue is cut, and no more. -/
theorem State.cutQuietHeads_run (cut kept : List Push) (n : Nat) (s : State) (hn : cut.length ≤ n) (h : s.pq.pushes = cut ++ kept)
    (hq : ∀ p ∈ cut, (look s.tu.nodes p.slot).state = .quiet) (hk : ∀ p ∈ kept.head?, (look s.tu.nodes p.slot).state ≠ .quiet) :
    s.cutQuietHeads n = s.cutHeads cut.length ∧ (s.cutHeads cut.length).pq.pushes = kept := by
  induction cut generalizing s n with
  | nil =>
    rw [List.nil_append] at h
    have quiet : s.headQuiet = false := by
      unfold State.headQuiet
      split
      · rfl
      · next p ps hp => rw [hp] at h; simpa [← h] using hk
    exact ⟨by cases n <;> simp [State.cutQuietHeads, quiet, State.cutHeads], h⟩
  | cons p ps ih =>
    obtain ⟨m, rfl⟩ : ∃ m, n = m + 1 := ⟨n - 1, by simp only [List.length_cons] at hn; omega⟩
    have quiet : s.headQuiet = true := by
      unfold State.headQuiet
      rw [h]
      simpa using hq p (by simp)
    have tu : s.cutHead.tu = s.tu := by rw [State.cutHead_frame]
    have := ih m s.cutHead (by simpa using hn) (by rw [State.cutHead_pushes, h]; rfl)
      (by rw [tu]; intro q hq'; exact hq q (by simp [hq'])) (by rw [tu]; exact hk)
    simpa [State.cutQuietHeads, quiet, State.cutHeads] using this

/-- The test of the head cuts the QUIET run at the front of the queue (R75). -/
theorem State.testHead_run (cut kept : List Push) (s : State) (h : s.pq.pushes = cut ++ kept)
    (hq : ∀ p ∈ cut, (look s.tu.nodes p.slot).state = .quiet) (hk : ∀ p ∈ kept.head?, (look s.tu.nodes p.slot).state ≠ .quiet) :
    s.testHead = s.cutHeads cut.length ∧ (s.cutHeads cut.length).pq.pushes = kept :=
  State.cutQuietHeads_run cut kept _ s (by simp [h]) h hq hk

/-! ### IA -/

/-- A send changes IA alone. -/
theorem State.send_frame (p : Packet) (e : PacketEffect) (s : State) : s.send p e = { s with ia := (s.send p e).ia } := rfl

theorem State.issueExchange_frame (i : RecIx) (s : State) :
    s.issueExchange i = { s with
      xu := (s.issueExchange i).xu, ia := (s.issueExchange i).ia, cu := (s.issueExchange i).cu
      tp := (s.issueExchange i).tp } := by
  unfold State.issueExchange
  split
  · rfl
  · simp only
    split <;> rfl

theorem State.issuePush_frame (s : State) :
    s.issuePush = { s with
      pq := s.issuePush.pq, ia := s.issuePush.ia, tp := s.issuePush.tp, mu := s.issuePush.mu
      reports := s.issuePush.reports } := by
  unfold State.issuePush
  split
  · rfl
  · simp only
    split
    · rw [State.testHead_frame]; rfl
    · rfl

theorem State.issueNext_frame (s : State) :
    s.issueNext = { s with
      xu := s.issueNext.xu, pq := s.issueNext.pq, ia := s.issueNext.ia, cu := s.issueNext.cu, tp := s.issueNext.tp
      mu := s.issueNext.mu, reports := s.issueNext.reports } := by
  unfold State.issueNext
  split
  · rfl
  · split
    · rw [State.issueExchange_frame]
    · rw [State.issuePush_frame]

/-- What an arbitration can change: XU, PQ, IA, CU, TP, MU's counters and the reports. -/
theorem State.arbitrate_frame (s : State) :
    s.arbitrate = { s with
      xu := s.arbitrate.xu, pq := s.arbitrate.pq, ia := s.arbitrate.ia, cu := s.arbitrate.cu, tp := s.arbitrate.tp
      mu := s.arbitrate.mu, reports := s.arbitrate.reports } := by
  unfold State.arbitrate
  split
  · rfl
  · split <;> try rfl
    · unfold State.sendNegotiation
      split
      · rfl
      · split <;> rfl
    · unfold State.sendWork
      split
      · rfl
      · split
        · rfl
        · rw [State.issueNext_frame]

@[simp] theorem State.arbitrate_resetn (s : State) : s.arbitrate.resetn = s.resetn := by rw [State.arbitrate_frame]
@[simp] theorem State.arbitrate_refok (s : State) : s.arbitrate.refok = s.refok := by rw [State.arbitrate_frame]
@[simp] theorem State.arbitrate_lp (s : State) : s.arbitrate.lp = s.lp := by rw [State.arbitrate_frame]
@[simp] theorem State.arbitrate_tu (s : State) : s.arbitrate.tu = s.tu := by rw [State.arbitrate_frame]
@[simp] theorem State.arbitrate_ru (s : State) : s.arbitrate.ru = s.ru := by rw [State.arbitrate_frame]
@[simp] theorem State.arbitrate_nu (s : State) : s.arbitrate.nu = s.nu := by rw [State.arbitrate_frame]
@[simp] theorem State.arbitrate_pending (s : State) : s.arbitrate.pending = s.pending := by rw [State.arbitrate_frame]

/-- A packet in SENDING is not broken off (R89). -/
theorem State.arbitrate_sending {s : State} {p : Packet} {rate : Byte} {e : PacketEffect}
    (h : s.ia.transmitter = .sending p rate e) : s.arbitrate = s := by
  simp [State.arbitrate, h]

/-- Nothing is sent outside NEGOTIATE and UP but a KEEP (R90). -/
theorem State.arbitrate_quiet {s : State} (h : s.tp.link ≠ .negotiate) (h' : s.tp.link ≠ .up) : s.arbitrate = s := by
  unfold State.arbitrate
  split
  · rfl
  · split <;> simp_all

/-- With nothing to send, IA does nothing. -/
theorem State.arbitrate_idle {s : State} (h : s.tp.link = .up → s.ia.creditClaim = false ∧ s.ia.cplClaims = [] ∧ s.pick = none)
    (h' : s.tp.link = .negotiate → s.ia.capClaim = false ∧ (s.ia.capackClaim = false ∨ s.tp.farCap = none)) :
    s.arbitrate = s := by
  unfold State.arbitrate
  split
  · rfl
  · split <;> try rfl
    · next hl =>
      obtain ⟨h1, h2⟩ := h' hl
      unfold State.sendNegotiation
      split
      · rcases h2 with h2 | h2 <;> simp_all
      · simp [h1]
    · next hl =>
      obtain ⟨h1, h2, h3⟩ := h hl
      simp [State.sendWork, h1, h2, State.issueNext, h3]

/-! ### TP -/

theorem State.enterNegotiate_frame (s : State) :
    s.enterNegotiate = { s with tp := s.enterNegotiate.tp, ia := s.enterNegotiate.ia } := rfl

theorem State.enterAwaitRef_frame (s : State) :
    s.enterAwaitRef = { s with tp := s.enterAwaitRef.tp, ia := s.enterAwaitRef.ia } := by
  unfold State.enterAwaitRef
  simp only
  split <;> rfl

theorem State.startIdle_frame (s : State) : s.startIdle = { s with ia := s.startIdle.ia } := by
  unfold State.startIdle
  split <;> rfl

theorem State.enterSettle_frame (f : CapFields) (s : State) :
    s.enterSettle f = { s with tp := (s.enterSettle f).tp, ia := (s.enterSettle f).ia } := by
  have key : ∀ t u : State, t = { s with tp := t.tp, ia := t.ia } →
      u = (if t.ia.transmitter = .free then t.startIdle else t) → u = { s with tp := u.tp, ia := u.ia } := by
    rintro t u ht rfl
    split
    · rw [State.startIdle_frame, ht]
    · rw [ht]
  exact key _ _ rfl rfl

theorem State.testComplete_frame (s : State) :
    s.testComplete = { s with tp := s.testComplete.tp, ia := s.testComplete.ia } := by
  unfold State.testComplete
  split
  · split
    · rw [State.enterSettle_frame]
    · rfl
  · rfl

theorem State.leaveLink_frame (reason : DownReason) (s : State) :
    s.leaveLink reason = { s with
      xu := (s.leaveLink reason).xu, tp := (s.leaveLink reason).tp, ia := (s.leaveLink reason).ia
      reports := (s.leaveLink reason).reports } := by
  unfold State.leaveLink
  split <;> first | rfl | skip
  simp only [State.leaveUp, State.offer_eq, State.onReports, State.onXu, State.onIa, State.onTp]

theorem State.segmentReset_frame (s : State) :
    s.segmentReset = { s with
      xu := s.segmentReset.xu, tp := s.segmentReset.tp, ia := s.segmentReset.ia, reports := s.segmentReset.reports } := by
  unfold State.segmentReset
  rw [State.leaveLink_frame]
  rfl

end Sys2Proof.Machine
end

