-- ==== Sys2Proof/Laws/Tables.lean ====
section
/-! SUPPORT. What reading and writing a table of records does, and what the searches over its numbers answer. -/

namespace Sys2Proof.Machine

variable {α : Type} {n : Nat}

theorem look_eq (v : Vector α n) (i : Fin n) : look v i = v[i.val] := rfl

@[simp] theorem look_put_same (v : Vector α n) (i : Fin n) (a : α) : look (put v i a) i = a := by
  simp [look_eq, put]

theorem look_put_other (v : Vector α n) {i j : Fin n} (a : α) (h : i ≠ j) : look (put v i a) j = look v j := by
  have h' : i.val ≠ j.val := fun e => h (Fin.ext e)
  simp [look_eq, put, h']

theorem look_put (v : Vector α n) (i j : Fin n) (a : α) : look (put v i a) j = if i = j then a else look v j := by
  split
  · next h => subst h; simp
  · next h => exact look_put_other v a h

@[simp] theorem look_mapIx (f : Fin n → α → α) (v : Vector α n) (i : Fin n) : look (mapIx f v) i = f i (look v i) := by
  simp [look_eq, mapIx]

@[simp] theorem look_replicate (a : α) (i : Fin n) : look (Vector.replicate n a) i = a := by
  simp [look_eq]

/-- Two tables that agree at every number are equal. -/
theorem table_ext {v w : Vector α n} (h : ∀ i, look v i = look w i) : v = w := by
  apply Vector.ext
  intro i hi
  simpa [look_eq] using h ⟨i, hi⟩

@[simp] theorem put_look (v : Vector α n) (i : Fin n) : put v i (look v i) = v :=
  table_ext fun j => by rw [look_put]; split <;> simp_all

@[simp] theorem put_put (v : Vector α n) (i : Fin n) (a b : α) : put (put v i a) i b = put v i b :=
  table_ext fun j => by simp only [look_put]; split <;> rfl

theorem mapIx_id (f : Fin n → α → α) (v : Vector α n) (h : ∀ i, f i (look v i) = look v i) : mapIx f v = v :=
  table_ext fun j => by rw [look_mapIx, h]

theorem mem_toList_iff (v : Vector α n) (a : α) : a ∈ v.toList ↔ ∃ i, look v i = a := by
  simp [look_eq, Vector.mem_toList_iff, Vector.mem_iff_getElem, Fin.exists_iff]

/-- A search finds nothing exactly when no number passes. -/
theorem firstIx_none {p : Fin n → Bool} : firstIx n p = none ↔ ∀ i, p i = false := by
  simp [firstIx, List.find?_eq_none]

/-- A search finds the lowest number that passes. -/
theorem firstIx_some {p : Fin n → Bool} {i : Fin n} : firstIx n p = some i ↔ p i = true ∧ ∀ j, j < i → p j = false := by
  unfold firstIx
  rw [List.find?_eq_some_iff_getElem]
  constructor
  · rintro ⟨hp, k, hk, hi, hlt⟩
    refine ⟨hp, fun j hj => ?_⟩
    simp only [List.getElem_finRange] at hi hlt
    have hki : k = i.val := by rw [← hi]; simp
    have := hlt j.val (by rw [hki]; exact hj)
    simpa using this
  · rintro ⟨hp, hlt⟩
    refine ⟨hp, i.val, by simp, by simp, fun j hj => ?_⟩
    have hj' : (⟨j, Nat.lt_trans hj i.isLt⟩ : Fin n) < i := hj
    simpa using hlt _ hj'

/-- A count of numbers whose test changes at one number only. -/
theorem countIx_change {p q : Fin n → Bool} (i : Fin n) (h : ∀ j, j ≠ i → p j = q j) :
    countIx n p + (if q i then 1 else 0) = countIx n q + (if p i then 1 else 0) := by
  have split : ∀ r : Fin n → Bool, countIx n r = (if r i then 1 else 0) + ((List.finRange n).erase i).countP r := by
    intro r
    unfold countIx
    rw [(List.perm_cons_erase (List.mem_finRange i)).countP_eq]
    simp [List.countP_cons, Nat.add_comm]
  rw [split p, split q]
  have : ((List.finRange n).erase i).countP p = ((List.finRange n).erase i).countP q := by
    apply List.countP_congr
    intro j hj
    have : j ≠ i := by
      rintro rfl
      exact (List.Nodup.not_mem_erase (List.nodup_finRange n)) hj
    rw [h j this]
  omega

theorem countIx_congr {p q : Fin n → Bool} (h : ∀ j, p j = q j) : countIx n p = countIx n q := by
  have : p = q := funext h
  rw [this]

end Sys2Proof.Machine
end

