-- ==== Sys2Proof/Laws/Exchanges.lean ====
section
/-! SUPPORT. What XU's and CU's operations can change: which blocks, and which records. -/

namespace Sys2Proof.Machine

/-! ### One record -/

@[simp] theorem State.record_setRecord_same (i : RecIx) (e : Exchange) (s : State) : (s.setRecord i e).record i = e := by
  simp [State.record, State.setRecord]

theorem State.record_setRecord_other {i j : RecIx} (h : i ≠ j) (e : Exchange) (s : State) :
    (s.setRecord i e).record j = s.record j := by
  simp [State.record, State.setRecord, look_put_other _ _ h]

@[simp] theorem State.record_freeRecord_same (i : RecIx) (s : State) : (s.freeRecord i).record i = Exchange.free := by
  simp [State.record, State.freeRecord]

theorem State.record_freeRecord_other {i j : RecIx} (h : i ≠ j) (s : State) : (s.freeRecord i).record j = s.record j := by
  simp [State.record, State.freeRecord, look_put_other _ _ h]

theorem State.offerFill_frame (e : Exchange) (s : State) : s.offerFill e = { s with ru := (s.offerFill e).ru } := by
  unfold State.offerFill
  split <;> rfl

theorem State.enterReady_frame (i : RecIx) (s : State) :
    s.enterReady i = { s with xu := (s.enterReady i).xu, ru := (s.enterReady i).ru } := by
  unfold State.enterReady
  simp only
  rw [State.offerFill_frame]
  rfl

/-- An examination for READY changes XU and RU. -/
theorem State.examine_frame (i : RecIx) (s : State) :
    s.examine i = { s with xu := (s.examine i).xu, ru := (s.examine i).ru } := by
  unfold State.examine
  simp only
  split
  · rw [State.enterReady_frame]
  · rfl

theorem State.examine_record_other {i j : RecIx} (h : i ≠ j) (s : State) : (s.examine i).record j = s.record j := by
  unfold State.examine State.enterReady
  simp only
  split
  · rw [State.offerFill_frame]
    exact State.record_setRecord_other h _ s
  · rfl

theorem State.examine_answerOrder (i : RecIx) (s : State) : (s.examine i).xu.answerOrder = s.xu.answerOrder := by
  unfold State.examine State.enterReady
  simp only
  split
  · rw [State.offerFill_frame]
    rfl
  · rfl

/-- Finalising an exchange changes XU, the Order List and RU. -/
theorem State.finalise_frame (code : FaultCode) (detail : BitVec 16) (i : RecIx) (s : State) :
    s.finalise code detail i = { s with
      xu := (s.finalise code detail i).xu, ia := (s.finalise code detail i).ia, ru := (s.finalise code detail i).ru } := by
  unfold State.finalise
  rw [State.examine_frame]
  rfl

theorem State.finalise_record_other {i j : RecIx} (h : i ≠ j) (code : FaultCode) (detail : BitVec 16) (s : State) :
    (s.finalise code detail i).record j = s.record j := by
  unfold State.finalise
  rw [State.examine_record_other h]
  simp [State.abandon, State.dropMember, State.setRecord, State.record, look_put_other _ _ h]

theorem State.takeSuccess_frame (i : RecIx) (s : State) :
    s.takeSuccess i = { s with xu := (s.takeSuccess i).xu, ru := (s.takeSuccess i).ru } := by
  unfold State.takeSuccess
  simp only
  rw [State.examine_frame]
  rfl

theorem State.takeFailure_frame (i : RecIx) (code : FaultCode) (detail : BitVec 16) (s : State) :
    s.takeFailure i code detail = { s with
      xu := (s.takeFailure i code detail).xu, ia := (s.takeFailure i code detail).ia
      ru := (s.takeFailure i code detail).ru } := by
  unfold State.takeFailure
  simp only
  split <;> (rw [State.examine_frame]; rfl)

/-! ### Every record in turn -/

/-- What every step of a pass over the records keeps, the pass keeps. -/
theorem State.forRecords_induct {P : State → Prop} {f : RecIx → State → State} (step : ∀ i t, P t → P (f i t)) {s : State}
    (h : P s) : P (s.forRecords f) := by
  unfold State.forRecords
  generalize List.finRange 8 = l
  induction l generalizing s with
  | nil => exact h
  | cons i l ih => exact ih (step i s h)

/-- A pass whose steps change XU, IA and RU changes XU, IA and RU. -/
theorem State.forRecords_frame {f : RecIx → State → State}
    (step : ∀ i t, f i t = { t with xu := (f i t).xu, ia := (f i t).ia, ru := (f i t).ru }) (s : State) :
    s.forRecords f = { s with xu := (s.forRecords f).xu, ia := (s.forRecords f).ia, ru := (s.forRecords f).ru } := by
  apply State.forRecords_induct (P := fun t => t = { s with xu := t.xu, ia := t.ia, ru := t.ru }) _ rfl
  intro i t ht
  rw [step i t, ht]

theorem State.quarantineRecord_frame (slot : SlotIx) (i : RecIx) (s : State) :
    s.quarantineRecord slot i = { s with
      xu := (s.quarantineRecord slot i).xu, ia := (s.quarantineRecord slot i).ia, ru := (s.quarantineRecord slot i).ru } := by
  unfold State.quarantineRecord
  simp only
  split
  · rw [State.finalise_frame]
  · rfl

theorem State.cutRecord_frame (reason : DownReason) (i : RecIx) (s : State) :
    s.cutRecord reason i = { s with
      xu := (s.cutRecord reason i).xu, ia := (s.cutRecord reason i).ia, ru := (s.cutRecord reason i).ru } := by
  unfold State.cutRecord
  split
  · rw [State.finalise_frame]
  · rfl

theorem State.failRecord_frame (i : RecIx) (s : State) :
    s.failRecord i = { s with xu := (s.failRecord i).xu, ia := (s.failRecord i).ia, ru := (s.failRecord i).ru } := by
  unfold State.failRecord
  split
  · rw [State.finalise_frame]
  · rfl

/-! ### CU -/

theorem State.reportPiece_frame (owner : Option RecIx) (r : PieceResult) (s : State) :
    s.reportPiece owner r = { s with reports := (s.reportPiece owner r).reports } := by
  unfold State.reportPiece
  split <;> rfl

/-- A CPL for a BUSY tag changes XU's read buffers, CU and the reports. -/
theorem State.busyCompletion_frame (t : TagIx) (status : Byte) (remaining : BitVec 16) (payload : List Byte) (s : State) :
    s.busyCompletion t status remaining payload = { s with
      xu := (s.busyCompletion t status remaining payload).xu, cu := (s.busyCompletion t status remaining payload).cu
      reports := (s.busyCompletion t status remaining payload).reports } := by
  have place : ∀ u : State, u.placePayload t payload = { u with xu := (u.placePayload t payload).xu } := by
    intro u
    unfold State.placePayload
    simp only
    split <;> rfl
  unfold State.busyCompletion
  simp only
  split
  · unfold State.remoteFailure
    rw [State.reportPiece_frame]
    rfl
  · split
    · split
      · simp only [State.finalCompletion, State.reportNode]
        rw [State.reportPiece_frame, place]
        rfl
      · simp only [State.partialCompletion]
        rw [place]
        rfl
    · unfold State.shapeFailure
      rw [State.reportPiece_frame]
      rfl

/-- The link's leaving UP changes CU and the reports. -/
theorem State.cutTags_frame (reason : DownReason) (s : State) :
    s.cutTags reason = { s with cu := (s.cutTags reason).cu, reports := (s.cutTags reason).reports } := by
  unfold State.cutTags
  generalize s.cu.busyTags = l
  induction l generalizing s with
  | nil => rfl
  | cons t l ih =>
    have step : s.cutTag reason t = { s with cu := (s.cutTag reason t).cu, reports := (s.cutTag reason t).reports } := by
      unfold State.cutTag
      rw [State.reportPiece_frame]
      rfl
    rw [List.foldl_cons, ih, step]

/-- TU's count of a timeout changes TU and the reports. -/
theorem State.nodeTimesOut_frame (i : SlotIx) (s : State) :
    s.nodeTimesOut i = { s with tu := (s.nodeTimesOut i).tu, reports := (s.nodeTimesOut i).reports } := by
  unfold State.nodeTimesOut
  simp only
  split
  · rfl
  · split
    · simp only [State.quarantine, State.offer_eq]
      rfl
    · rfl

end Sys2Proof.Machine
end

