-- ==== Sys2Proof/Laws/Notices.lean ====
section
/-! SUPPORT. What NU's search for a key answers, and what an arrival changes. -/

namespace Sys2Proof.Machine

theorem Notice.hasKey_eq (n : Notice) (source : NodeId) (code : BitVec 16) (arg : BitVec 32) :
    n.hasKey source code arg = decide (n.key = (source, code, arg)) := by
  simp [Notice.hasKey, Notice.key, Bool.decide_and, Bool.and_assoc, beq_eq_decide]

/-- The first unsent entry of the key is folded into. -/
theorem foldNotice_some {source : NodeId} {code : BitVec 16} {arg : BitVec 32} (before : List Notice) {n : Notice} (after : List Notice)
    (h1 : n.sent = false) (h2 : n.key = (source, code, arg)) (h3 : ∀ m ∈ before, m.sent = true ∨ m.key ≠ (source, code, arg)) :
    foldNotice source code arg (before ++ n :: after) = some (before ++ { n with count := min 255 (n.count + 1) } :: after) := by
  induction before with
  | nil => simp [foldNotice, h1, Notice.hasKey_eq, h2]
  | cons m ms ih =>
    have e : (!m.sent && m.hasKey source code arg) = false := by
      rcases h3 m (by simp) with h | h
      · simp [h]
      · simp [Notice.hasKey_eq, h]
    simp only [List.cons_append, foldNotice, e, Bool.false_eq_true, if_false]
    rw [ih fun m hm => h3 m (by simp [hm])]
    rfl

/-- With no unsent entry of the key there is nothing to fold into. -/
theorem foldNotice_none {source : NodeId} {code : BitVec 16} {arg : BitVec 32} {queue : List Notice}
    (h : ∀ m ∈ queue, m.sent = true ∨ m.key ≠ (source, code, arg)) : foldNotice source code arg queue = none := by
  induction queue with
  | nil => rfl
  | cons m ms ih =>
    have e : (!m.sent && m.hasKey source code arg) = false := by
      rcases h m (by simp) with h | h
      · simp [h]
      · simp [Notice.hasKey_eq, h]
    simp only [foldNotice, e, Bool.false_eq_true, if_false]
    rw [ih fun m hm => h m (by simp [hm])]
    rfl

/-- An arrival changes NU and MU's counters alone. -/
theorem State.noticeArrives_frame (source : NodeId) (code : BitVec 16) (arg : BitVec 32) (s : State) :
    s.noticeArrives source code arg = { s with
      nu := (s.noticeArrives source code arg).nu, mu := (s.noticeArrives source code arg).mu } := by
  unfold State.noticeArrives
  split
  · rfl
  · split <;> rfl

end Sys2Proof.Machine
end

