-- ==== Sys2Proof/Laws/Requests.lean ====
section
/-! SUPPORT. How a request reaches its handler, and the searches of the acceptance chain. -/

namespace Sys2Proof.Machine

/-- Taking a request leaves the Last Reply Record. -/
theorem LinePort.take_lastReply {r : LineRequest} {l m : LinePort} (h : l.take r = some m) : m.lastReply = l.lastReply := by
  simp only [LinePort.take] at h
  repeat' split at h
  all_goals (try cases h) <;> rfl

/-- Taking a request leaves the rate and the station in force. -/
theorem LinePort.take_pins {r : LineRequest} {l m : LinePort} (h : l.take r = some m) :
    m.lrate = l.lrate ∧ m.station = l.station := by
  simp only [LinePort.take] at h
  repeat' split at h
  all_goals (try cases h) <;> exact ⟨rfl, rfl⟩

theorem State.replayFor_of_take {s : State} {r : LineRequest} {l : LinePort} (h : s.lp.take r = some l) :
    (s.onLp fun _ => l).replayFor r = s.replayFor r := by
  simp [State.replayFor, LinePort.replay, LinePort.take_lastReply h]

/-- The command of a request, where LP hands it over: the broadcast or the addressed handling. -/
theorem exec_command {s : State} {r : LineRequest} {l : LinePort} (h : s.Takes r l) (hb : r.broadcast = false ∨ r.kind = .push) :
    exec r.command s = .next
      (if r.broadcast then (s.onLp fun _ => l).broadcastRequest r else (s.onLp fun _ => l).addressedRequest r) := by
  obtain ⟨h1, h2⟩ := h
  have key : exec r.command s = .next (s.handleRequest r) := by
    obtain ⟨b, k, x, p⟩ := r
    cases k <;> simp_all [LineRequest.command, exec, execRead, execWrite, execPush, execPoll]
  rw [key, State.handleRequest, h2]

/-- A request of good form that the record does not answer is routed. -/
theorem exec_command_new {s : State} {r : LineRequest} {l : LinePort} (h : s.TakesNew r l) :
    exec r.command s = .next ((s.onLp fun _ => l).route r) := by
  obtain ⟨h1, h2, h3, h4⟩ := h
  rw [exec_command h1 (.inl h2)]
  simp only [h2, Bool.false_eq_true, if_false, State.addressedRequest, State.replayFor_of_take h1.2, h3, h4, if_true]

/-- A WRITE to unit 0 that the record does not answer is MU's. -/
theorem State.unitZero_handled {s : State} {l : LinePort} {xno : Xno} {offset : BitVec 24} {data : List Byte}
    (h : s.TakesNew (unitZeroRequest xno offset data) l) :
    s.handleRequest (unitZeroRequest xno offset data) = (s.onLp fun _ => l).managementWrite (unitZeroRequest xno offset data) := by
  have key := exec_command_new h
  simp only [unitZeroRequest, LineRequest.command, exec, execWrite, State.whenRunning_true _ _ h.1.1] at key
  rw [unitZeroRequest, Host.Outcome.next.inj key]
  simp [State.route, LineRequest.unit, unitZeroWrite, byteAt]

/-- No record that is not FREE holds the xno: neither search finds one. -/
theorem ExchangeUnit.holders_none {u : ExchangeUnit} {x : Xno}
    (h : ∀ j, (look u.records j).state = .free ∨ (look u.records j).xno ≠ x) :
    u.liveHolder x = none ∧ u.answeredHolder x = none := by
  refine ⟨firstIx_none.2 fun j => ?_, firstIx_none.2 fun j => ?_⟩
  · rcases h j with h | h <;> simp [Exchange.live, h]
  · rcases h j with h | h <;> simp [h]

/-- The record a new exchange takes. -/
theorem ExchangeUnit.allocation_eq {u : ExchangeUnit} {i : RecIx}
    (h : ((look u.records i).state = .free ∧ ∀ j, j < i → (look u.records j).state ≠ .free)
      ∨ (∀ j, (look u.records j).state ≠ .free) ∧ u.answerOrder.head? = some i) : u.allocation = some i := by
  unfold ExchangeUnit.allocation
  rcases h with ⟨h1, h2⟩ | ⟨h1, h2⟩
  · rw [firstIx_some.2 ⟨by simpa using h1, fun j hj => by simpa using h2 j hj⟩]
  · rw [firstIx_none.2 (by simpa using h1), h2]

/-- Resolution does not read the Line Port. -/
@[simp] theorem State.onLp_resolve (s : State) (f : LinePort → LinePort) (k : WorkKind) (u : Byte) (o n : Nat) :
    (s.onLp f).resolve k u o n = s.resolve k u o n := rfl

@[simp] theorem State.onLp_record (s : State) (f : LinePort → LinePort) (i : RecIx) : (s.onLp f).record i = s.record i := rfl

@[simp] theorem State.onLp_nodeRefusal (s : State) (f : LinePort → LinePort) (i : SlotIx) (image : List Byte) :
    (s.onLp f).nodeRefusal i image = s.nodeRefusal i image := rfl

end Sys2Proof.Machine
end

