-- ==== Sys2Proof/Laws/Retention.lean ====
section
/-! SUPPORT. What an overlap of ranges is, which buffer a fill takes, and who holds a node slot. -/

namespace Sys2Proof.Machine

/-- Two ranges overlap exactly when an address lies in both. -/
theorem rangesOverlap_iff {a₁ l₁ a₂ l₂ : Nat} :
    rangesOverlap a₁ l₁ a₂ l₂ = true ↔ ∃ a, a₁ ≤ a ∧ a < a₁ + l₁ ∧ a₂ ≤ a ∧ a < a₂ + l₂ := by
  simp only [rangesOverlap, decide_eq_true_eq]
  constructor
  · exact fun h => ⟨max a₁ a₂, by omega, by omega, by omega, by omega⟩
  · rintro ⟨a, h1, h2, h3, h4⟩
    omega

/-- A valid buffer holds the block a fill would bring. -/
def RetentionUnit.holdsBlock (u : RetentionUnit) (window : WinIx) (addr : FabricAddr) (length : Nat) (i : BufIx) : Prop :=
  (look u.buffers i).valid = true ∧ (look u.buffers i).window = window ∧ (look u.buffers i).addr = addr
    ∧ (look u.buffers i).data.length = length

/-- The three cases of a fill's choice (R124). -/
theorem RetentionUnit.fillTarget_some {u : RetentionUnit} {window : WinIx} {addr : FabricAddr} {length : Nat} {i : BufIx}
    (h : u.holdsBlock window addr length i ∧ (∀ j, j < i → ¬u.holdsBlock window addr length j)
      ∨ (∀ j, ¬u.holdsBlock window addr length j) ∧ (look u.buffers i).valid = false ∧ (∀ j, j < i → (look u.buffers j).valid = true)
      ∨ (∀ j, ¬u.holdsBlock window addr length j) ∧ (∀ j, (look u.buffers j).valid = true) ∧ u.useOrder.head? = some i) :
    u.fillTarget window addr length = some i := by
  have test : ∀ j, ((look u.buffers j).valid && (look u.buffers j).window == window && (look u.buffers j).addr == addr
      && (look u.buffers j).data.length == length) = true ↔ u.holdsBlock window addr length j := by
    simp [RetentionUnit.holdsBlock, and_assoc]
  have none_found (hn : ∀ j, ¬u.holdsBlock window addr length j) : firstIx 4 (fun j => (look u.buffers j).valid
      && (look u.buffers j).window == window && (look u.buffers j).addr == addr && (look u.buffers j).data.length == length) = none :=
    firstIx_none.2 fun j => Bool.eq_false_iff.2 fun hj => hn j ((test j).1 hj)
  unfold RetentionUnit.fillTarget
  rcases h with ⟨hi, hlt⟩ | ⟨hn, hi, hlt⟩ | ⟨hn, hall, hhead⟩
  · rw [firstIx_some.2 ⟨(test i).2 hi, fun j hj => Bool.eq_false_iff.2 fun h => hlt j hj ((test j).1 h)⟩]
  · rw [none_found hn, (firstIx_some (i := i)).2 ⟨by simp [hi], fun j hj => by simp [hlt j hj]⟩]
  · rw [none_found hn, firstIx_none.2 fun j => by simp [hall j], hhead]

/-- The four kinds of holder of a node slot (R53). -/
theorem State.inUse_iff (s : State) (n : SlotIx) : s.inUse n = true ↔
    (∃ i : WinIx, (look s.tu.windows i).valid = true ∧ (look s.tu.windows i).slot = n)
      ∨ (∃ i : RecIx, (s.record i).inWork = true ∧ (s.record i).slot = n)
      ∨ (∃ p ∈ s.pq.pushes, p.slot = n)
      ∨ ∃ t : TagIx, (s.tag t).state = .busy ∧ (s.tag t).slot = n := by
  simp only [State.inUse, Bool.or_eq_true, List.any_eq_true, mem_toList_iff, Bool.and_eq_true, beq_iff_eq, or_assoc]
  simp [State.record, State.tag]

end Sys2Proof.Machine
end

