-- ==== Sys2Proof/Laws/Space.lean ====
section
/-! SUPPORT. The map of the management space, the search for a setting out of range, and what a write can change. -/

namespace Sys2Proof.Machine

/-- An access within a region finds it; no two regions share an offset. -/
theorem regionOf_eq (r : Region) {o n : Nat} (h1 : r.base ≤ o) (h2 : o + n ≤ r.base + r.size) (h0 : 0 < n) :
    regionOf o n = some r := by
  unfold regionOf
  have hin : r ∈ Region.all := by cases r <;> simp [Region.all]
  cases h : Region.all.find? fun r => r.base ≤ o && o + n ≤ r.base + r.size with
  | none =>
    have := List.find?_eq_none.1 h r hin
    simp at this
    omega
  | some r' =>
    have := List.find?_some h
    simp at this
    cases r <;> cases r' <;> simp only [Region.base, Region.size] at h1 h2 this <;> first | rfl | omega

/-- A read within a readable region answers the bytes covered. -/
theorem State.readSpace_eq (s : State) (r : Region) (hr : r.readable = true) {o n : Nat} (h1 : r.base ≤ o)
    (h2 : o + n ≤ r.base + r.size) (h0 : 0 < n) : s.readSpace o n = .ok (slice (s.regionBytes r) (o - r.base) n) := by
  simp only [State.readSpace, readRegion, regionOf_eq r h1 h2 h0, hr, if_true]

/-- The region found holds the whole access. -/
theorem regionOf_some {r : Region} {o n : Nat} (h : regionOf o n = some r) : r.base ≤ o ∧ o + n ≤ r.base + r.size := by
  have := List.find?_some h
  simpa using this

/-- A byte in no region makes the access unmapped. -/
theorem regionOf_none {o n k : Nat} (hk : k < n) (h : ∀ r : Region, o + k < r.base ∨ r.base + r.size ≤ o + k) : regionOf o n = none := by
  cases hr : regionOf o n with
  | none => rfl
  | some r =>
    have := regionOf_some hr
    have := h r
    omega

/-- A read that is answered lies in one readable region. -/
theorem State.readSpace_ok {s : State} {o n : Nat} {bytes : List Byte} (h : s.readSpace o n = .ok bytes) :
    ∃ r : Region, r.readable = true ∧ r.base ≤ o ∧ o + n ≤ r.base + r.size
      ∧ bytes = slice (s.regionBytes r) (o - r.base) n := by
  unfold State.readSpace readRegion at h
  cases hr : regionOf o n with
  | none => simp [hr] at h
  | some r =>
    simp only [hr] at h
    by_cases hread : r.readable = true
    · simp only [hread, if_true] at h
      exact ⟨r, hread, (regionOf_some hr).1, (regionOf_some hr).2, (Except.ok.inj h).symm⟩
    · simp [hread] at h

/-- Part of what can be read reads as that part (R166). -/
theorem State.readSpace_part {s : State} {o n : Nat} {bytes : List Byte} (h : s.readSpace o n = .ok bytes) {k m : Nat} (hm : 1 ≤ m)
    (hk : k + m ≤ n) : s.readSpace (o + k) m = .ok (slice bytes k m) := by
  obtain ⟨r, hr, h1, h2, rfl⟩ := State.readSpace_ok h
  rw [State.readSpace_eq s r hr (by omega) (by omega) (by omega), slice_slice _ _ _ _ _ hk]
  congr 2
  omega

/-- Adjacent reads join: no region ends where another begins. -/
theorem State.readSpace_join {s : State} {o n m : Nat} {bytes rest : List Byte} (h : s.readSpace o n = .ok bytes)
    (h' : s.readSpace (o + n) m = .ok rest) (hn : 1 ≤ n) (hm : 1 ≤ m) : s.readSpace o (n + m) = .ok (bytes ++ rest) := by
  obtain ⟨r, hr, h1, h2, rfl⟩ := State.readSpace_ok h
  obtain ⟨r', hr', h1', h2', rfl⟩ := State.readSpace_ok h'
  obtain rfl : r = r' := by
    cases r <;> cases r' <;> first | rfl | (simp only [Region.base, Region.size] at *; omega)
  rw [State.readSpace_eq s r hr h1 (by omega) (by omega), ← slice_join, show o + n - r.base = o - r.base + n by omega]

/-- Every byte in range: no setting is refused. -/
theorem firstBadSetting_none {place : Nat} {data : List Byte}
    (h : ∀ k, k < data.length → settingOk (place + k) (byteAt data k) = true) : firstBadSetting place data = none := by
  induction data generalizing place with
  | nil => rfl
  | cons b bs ih =>
    have first := h 0 (by simp)
    simp [byteAt] at first
    rw [firstBadSetting, if_pos first]
    apply ih
    intro k hk
    have := h (k + 1) (by simpa using hk)
    simpa [byteAt, Nat.add_assoc, Nat.add_comm, Nat.add_left_comm] using this

/-- The first byte out of range names the setting refused. -/
theorem firstBadSetting_some {place : Nat} {data : List Byte} {k : Nat} (h0 : k < data.length)
    (h1 : settingOk (place + k) (byteAt data k) = false)
    (h : ∀ j, j < k → settingOk (place + j) (byteAt data j) = true) : firstBadSetting place data = some (place + k) := by
  induction data generalizing place k with
  | nil => simp at h0
  | cons b bs ih =>
    cases k with
    | zero =>
      simp [byteAt] at h1
      simp [firstBadSetting, h1]
    | succ k =>
      have first := h 0 (by simp)
      simp [byteAt] at first
      rw [firstBadSetting, if_pos first, ih (by simpa using h0)
        (by simpa [byteAt, Nat.add_assoc, Nat.add_comm, Nat.add_left_comm] using h1)]
      · congr 1
        omega
      · intro j hj
        have := h (j + 1) (by omega)
        simpa [byteAt, Nat.add_assoc, Nat.add_comm, Nat.add_left_comm] using this

/-! ### Several images in one write -/

/-- Images laid one after another are cut into themselves. -/
theorem partsOf_flatten (n : Nat) (images : List (List Byte)) (h : ∀ image ∈ images, image.length = n) :
    partsOf n images.length images.flatten = images := by
  induction images with
  | nil => rfl
  | cons x xs ih =>
    have hx : x.length = n := h x (by simp)
    rw [List.length_cons, List.flatten_cons, partsOf, List.take_left' hx, List.drop_left' hx, ih fun i hi => h i (by simp [hi])]

theorem State.loadWindow_eq (i : WinIx) (image : List Byte) (s : State) : s.loadWindow i image = { s with
    tu := { s.tu with windows := put s.tu.windows i (acceptedWindow image) }
    ru := s.ru.invalidate fun b => b.window == i
    xu := s.xu.void fun e => e.window == i } := rfl

theorem State.loadNode_eq (i : SlotIx) (image : List Byte) (s : State) : s.loadNode i image = { s with
    tu := { s.tu with nodes := put s.tu.nodes i (acceptedNode image) }
    ru := s.ru.invalidate fun b => b.slot == i
    xu := s.xu.void fun e => e.slot == i } := rfl

/-- Window images that pass, one after another: what the last one leaves (R58). -/
theorem State.loadWindows_all (n : Nat) (images : List (List Byte)) (left : Nat → State) (hn : n + images.length ≤ 16)
    (hs : ∀ (k : Nat) (i : WinIx) (image : List Byte), images[k]? = some image → i.val = n + k →
      left (k + 1) = (left k).loadWindow i image)
    (hp : ∀ (k : Nat) (i : WinIx) (image : List Byte), images[k]? = some image → i.val = n + k →
      (left k).tu.windowRefusal i image = none) :
    State.loadWindows n images (left 0) = .ok (left images.length) := by
  induction images generalizing n left with
  | nil => rfl
  | cons x xs ih =>
    simp only [List.length_cons] at hn
    rw [State.loadWindows, dif_pos (by omega), hp 0 ⟨n, by omega⟩ x rfl rfl]
    have := ih (n + 1) (fun k => left (k + 1)) (by omega)
      (fun k i im hk hi => hs (k + 1) i im (by simpa using hk) (by omega))
      (fun k i im hk hi => hp (k + 1) i im (by simpa using hk) (by omega))
    simp only at this ⊢
    rw [← hs 0 ⟨n, by omega⟩ x rfl rfl]
    simpa using this

/-- Window images up to the first refused: its slot and its reason (R58). -/
theorem State.loadWindows_first (n : Nat) (images : List (List Byte)) (left : Nat → State) (hn : n + images.length ≤ 16)
    (hs : ∀ (k : Nat) (i : WinIx) (image : List Byte), images[k]? = some image → i.val = n + k →
      left (k + 1) = (left k).loadWindow i image)
    (k : Nat) (i : WinIx) (image : List Byte) (reason : RefusalReason) (hk : images[k]? = some image) (hi : i.val = n + k)
    (hr : (left k).tu.windowRefusal i image = some reason)
    (hp : ∀ (j : Nat) (i : WinIx) (image : List Byte), j < k → images[j]? = some image → i.val = n + j →
      (left j).tu.windowRefusal i image = none) :
    State.loadWindows n images (left 0) = .error (refusedDetail i.val reason) := by
  induction images generalizing n left k with
  | nil => simp at hk
  | cons x xs ih =>
    simp only [List.length_cons] at hn
    rw [State.loadWindows, dif_pos (by omega)]
    cases k with
    | zero =>
      cases hk
      obtain rfl : n = i.val := by omega
      simp only [Fin.eta, hr]
    | succ k =>
      rw [hp 0 ⟨n, by omega⟩ x (by omega) rfl rfl]
      have := ih (n + 1) (fun j => left (j + 1)) (by omega)
        (fun j i im hj hi => hs (j + 1) i im (by simpa using hj) (by omega)) k (by simpa using hk) (by omega) hr
        (fun j i im hlt hj hi => hp (j + 1) i im (by omega) (by simpa using hj) (by omega))
      simp only at this ⊢
      rw [← hs 0 ⟨n, by omega⟩ x rfl rfl]
      simpa using this

/-- Node images that pass, one after another: what the last one leaves (R58). -/
theorem State.loadNodes_all (n : Nat) (images : List (List Byte)) (left : Nat → State) (hn : n + images.length ≤ 32)
    (hs : ∀ (k : Nat) (i : SlotIx) (image : List Byte), images[k]? = some image → i.val = n + k →
      left (k + 1) = (left k).loadNode i image)
    (hp : ∀ (k : Nat) (i : SlotIx) (image : List Byte), images[k]? = some image → i.val = n + k →
      (left k).nodeRefusal i image = none) :
    State.loadNodes n images (left 0) = .ok (left images.length) := by
  induction images generalizing n left with
  | nil => rfl
  | cons x xs ih =>
    simp only [List.length_cons] at hn
    rw [State.loadNodes, dif_pos (by omega), hp 0 ⟨n, by omega⟩ x rfl rfl]
    have := ih (n + 1) (fun k => left (k + 1)) (by omega)
      (fun k i im hk hi => hs (k + 1) i im (by simpa using hk) (by omega))
      (fun k i im hk hi => hp (k + 1) i im (by simpa using hk) (by omega))
    simp only at this ⊢
    rw [← hs 0 ⟨n, by omega⟩ x rfl rfl]
    simpa using this

/-- Node images up to the first refused: its slot and its reason (R58). -/
theorem State.loadNodes_first (n : Nat) (images : List (List Byte)) (left : Nat → State) (hn : n + images.length ≤ 32)
    (hs : ∀ (k : Nat) (i : SlotIx) (image : List Byte), images[k]? = some image → i.val = n + k →
      left (k + 1) = (left k).loadNode i image)
    (k : Nat) (i : SlotIx) (image : List Byte) (reason : RefusalReason) (hk : images[k]? = some image) (hi : i.val = n + k)
    (hr : (left k).nodeRefusal i image = some reason)
    (hp : ∀ (j : Nat) (i : SlotIx) (image : List Byte), j < k → images[j]? = some image → i.val = n + j →
      (left j).nodeRefusal i image = none) :
    State.loadNodes n images (left 0) = .error (refusedDetail i.val reason) := by
  induction images generalizing n left k with
  | nil => simp at hk
  | cons x xs ih =>
    simp only [List.length_cons] at hn
    rw [State.loadNodes, dif_pos (by omega)]
    cases k with
    | zero =>
      cases hk
      obtain rfl : n = i.val := by omega
      simp only [Fin.eta, hr]
    | succ k =>
      rw [hp 0 ⟨n, by omega⟩ x (by omega) rfl rfl]
      have := ih (n + 1) (fun j => left (j + 1)) (by omega)
        (fun j i im hj hi => hs (j + 1) i im (by simpa using hj) (by omega)) k (by simpa using hk) (by omega) hr
        (fun j i im hlt hj hi => hp (j + 1) i im (by omega) (by simpa using hj) (by omega))
      simp only at this ⊢
      rw [← hs 0 ⟨n, by omega⟩ x rfl rfl]
      simpa using this

/-! ### What a write leaves alone -/

/-- The pins, the Line Port and the queue stand. -/
def State.SamePort (s t : State) : Prop := t.resetn = s.resetn ∧ t.refok = s.refok ∧ t.lp = s.lp ∧ t.pending = s.pending

theorem State.loadWindows_samePort {n : Nat} {images : List (List Byte)} {s t : State} (h : State.loadWindows n images s = .ok t) :
    s.SamePort t := by
  induction images generalizing n s with
  | nil => simp only [State.loadWindows, Except.ok.injEq] at h; subst h; exact ⟨rfl, rfl, rfl, rfl⟩
  | cons image rest ih =>
    rw [State.loadWindows] at h
    split at h
    · split at h
      · cases h
      · exact (ih h :)
    · cases h
      exact ⟨rfl, rfl, rfl, rfl⟩

theorem State.loadNodes_samePort {n : Nat} {images : List (List Byte)} {s t : State} (h : State.loadNodes n images s = .ok t) :
    s.SamePort t := by
  induction images generalizing n s with
  | nil => simp only [State.loadNodes, Except.ok.injEq] at h; subst h; exact ⟨rfl, rfl, rfl, rfl⟩
  | cons image rest ih =>
    rw [State.loadNodes] at h
    split at h
    · split at h
      · cases h
      · exact (ih h :)
    · cases h
      exact ⟨rfl, rfl, rfl, rfl⟩

theorem State.runCommand_samePort {code arg : Byte} {s t : State} {d : Deferred} (h : s.runCommand code arg = .ok (t, d)) :
    s.SamePort t := by
  unfold State.runCommand at h
  split at h <;> first | (cases h; exact ⟨rfl, rfl, rfl, rfl⟩) | (cases h) | skip
  split at h
  · next u hu =>
    cases h
    unfold State.clearQuietSlot at hu
    split at hu
    · cases hu
    · simp only at hu
      split at hu
      · cases hu
      · cases hu
        simp [State.SamePort]
  · cases h

/-- An accepted write leaves the pins, the Line Port and the queue. -/
theorem State.writeSpace_samePort {offset : Nat} {data : List Byte} {s t : State} {d : Deferred}
    (h : s.writeSpace offset data = .ok (t, d)) : s.SamePort t := by
  unfold State.writeSpace at h
  split at h <;> try (cases h)
  · unfold State.writeSettings at h
    split at h
    · cases h
    · cases h
      exact ⟨rfl, rfl, rfl, rfl⟩
  · exact State.runCommand_samePort h
  · split at h
    · next hw => cases h; exact State.loadWindows_samePort hw
    · cases h
  · split at h
    · next hw =>
      cases h
      have := State.loadNodes_samePort hw
      simpa [State.SamePort] using this
    · cases h

end Sys2Proof.Machine
end

