-- ==== Sys2Proof/Tests/Slice0.lean ====
section
/-! SUPPORT. Tests of one step each on small states: the operand checks, the two CRCs, encodings written out, and, for every statement
with hypotheses, a state and operands that meet them (`witness_<statement>`). -/

namespace Sys2Proof.Tests

open Sys2Proof Sys2Proof.Machine

-- A `decide +kernel` waits for the kernel; in their turn the tests do not wait for one another in many threads.
set_option Elab.async false

/-! ### The operand checks refuse -/

theorem test_ill_formed_length : (Instr.lengthAbandon 244).wellFormed = false := by decide
theorem test_ill_formed_frame : (Instr.lineFrame []).wellFormed = false := by decide
theorem test_ill_formed_read : (Instr.read 1 (List.replicate 245 0)).wellFormed = false := by decide +kernel
theorem test_ill_formed_write : (Instr.write 1 (List.replicate 245 0)).wellFormed = false := by decide +kernel
theorem test_ill_formed_push : (Instr.push true 1 (List.replicate 245 0)).wellFormed = false := by decide +kernel
theorem test_ill_formed_poll : (Instr.poll 1 (List.replicate 245 0)).wellFormed = false := by decide +kernel
theorem test_ill_formed_settings_data : (Instr.settingsWrite (.line 1) 0x100 []).wellFormed = false := by decide +kernel
theorem test_ill_formed_settings_offset : (Instr.settingsWrite (.line 1) 0x107 [1]).wellFormed = false := by decide +kernel
theorem test_ill_formed_line_data :
    (Instr.windowImageWrite (.line 1) 0x1000 (List.replicate 241 0)).wellFormed = false := by decide +kernel
theorem test_ill_formed_trunk_data :
    (Instr.windowImageWrite .trunk 0x1000 (List.replicate 513 0)).wellFormed = false := by decide +kernel
theorem test_ill_formed_window : (Instr.windowImageWrite (.line 1) 0x1200 [0]).wellFormed = false := by decide +kernel
theorem test_ill_formed_node : (Instr.nodeImageWrite (.line 1) 0x1FFF [0]).wellFormed = false := by decide +kernel
theorem test_ill_formed_management : (Instr.managementWrite (.line 1) 0x100 [1]).wellFormed = false := by decide +kernel
theorem test_ill_formed_command : (Instr.managementWrite (.line 1) 0x400 [6, 0]).wellFormed = false := by decide +kernel
theorem test_ill_formed_bad_packet : (Instr.trunkBadPacket (Packet.keep).bytes).wellFormed = false := by decide +kernel
theorem test_ill_formed_request : (Instr.incomingManagementRequest 0 5 1 0 (.rqr 0)).wellFormed = false := by decide +kernel
theorem test_ill_formed_request_payload : (Instr.incomingManagementRequest 0 5 1 0 (.rqw [])).wellFormed = false := by decide +kernel
theorem test_ill_formed_psh : (Instr.psh 5 1 0 []).wellFormed = false := by decide +kernel
theorem test_ill_formed_cpl : (Instr.cpl 5 0 0 0 (List.replicate 513 0)).wellFormed = false := by decide +kernel
theorem test_ill_formed_capack : (Instr.capack ⟨4, 512, 2, 0, 0x1000⟩).wellFormed = false := by decide +kernel

/-! ### CRCs and encodings -/

/-- The check values of R5 and R183, over the nine bytes of "123456789". -/
theorem test_crc16 : crc16 [0x31, 0x32, 0x33, 0x34, 0x35, 0x36, 0x37, 0x38, 0x39] = 0x29B1 := by decide +kernel
theorem test_crc32 : crc32 [0x31, 0x32, 0x33, 0x34, 0x35, 0x36, 0x37, 0x38, 0x39] = 0xFC891918 := by decide +kernel

/-- An RQR of tag 9 to node $100 from $005, 64 bytes at $0000001240 (Table 11-4). -/
theorem test_rqr_bytes : (Packet.rqr 9 0x100 0x005 0x1240 64).body
    = [0x21, 0x09, 0x01, 0x00, 0x00, 0x05, 0x00, 0x00, 0x00, 0x12, 0x40, 0x00, 0x40] := by decide +kernel

theorem test_packet_parses : commandOfPacket (Packet.cpl 0x005 9 0 0 [1, 2, 3]).bytes = .cpl 0x005 9 0 0 [1, 2, 3] := by decide +kernel

/-- A flipped bit fails the CRC. -/
theorem test_packet_corrupt :
    parsePacket ((Packet.credit 3 4).bytes.set 1 2) = none := by decide +kernel

/-! ### Small states -/

/-- Node slot 1: LIVE, node $100, 64-byte pieces, limit 2, timeout 3 ms, threshold 2, one timeout counted. -/
def node : Node := ⟨.live, 0x100, 64, 2, 3, 2, 1⟩

/-- Window 0: units 10..12 at $1000 by 512 bytes, every right, RETAIN with depth 2. -/
def window : Window := ⟨true, 10, 12, 1, 0x1000, 9, 512, true, true, true, true, 2, false⟩

/-- The machine after reset with one node slot and one window loaded; the link waits for REFOK. -/
def loaded : State :=
  { State.reset with tu := ⟨put (Vector.replicate 16 Window.empty) 0 window, put (Vector.replicate 32 Node.unused) 1 node⟩ }

/-- The same with the link UP: node ID 5, class 3, 256-byte pieces, four request and two push credits. -/
def up : State :=
  { loaded with
    refok := true
    tp := { loaded.tp with
      link := .up, nodeId := 5, rateClass := 3, pieceMax := 256, attempt := 1
      requestLimit := 4, pushLimit := 2, grantedRequest := 2, linkLoss := some 2000 }
    ia := { loaded.ia with idleTimer := some 250 } }

/-- The same in NEGOTIATE, with a CAP in SENDING. -/
def negotiating : State :=
  { loaded with
    refok := true
    tp := { loaded.tp with link := .negotiate, attempt := 1, attemptTimer := some 1000, capInterval := some 100 }
    ia := { loaded.ia with transmitter := .sending (.cap gatewayCap) 1 .nothing } }

/-- The same in SETTLE. -/
def settling : State :=
  { up with tp := { up.tp with link := .settle, settle := some 200 } }

/-- A request under xno 1. -/
def request (kind : RequestKind) (payload : List Byte) : LineRequest := ⟨false, kind, 1, payload⟩

/-- A READ of 60 bytes at offset 40 of unit 10. -/
def readRequest : LineRequest := request .read [10, 0, 0, 40, 60]

/-- A WRITE of three bytes there. -/
def writeRequest : LineRequest := request .write [10, 0, 0, 40, 1, 2, 3]

/-- A PUSH of three bytes there. -/
def pushRequest : LineRequest := request .push [10, 0, 0, 40, 1, 2, 3]

/-- The Line Port once it has handed a request over. -/
def waiting : LinePort := { State.reset.lp with transmitter := .wait none }

/-- An exchange of readRequest in a state. -/
def exchange (state : ExchangeState) (result : ExchangeResult) (timer : Timer) : Exchange :=
  { Exchange.free with
    state := state, xno := 1, signature := readRequest.signature, slot := 1, addr := 0x1028, requestedLength := 60
    issueLength := 60, readBuffer := List.replicate 60 7, retain := some true, result := result, holdTimer := timer }

/-- The state with one exchange in record 2. -/
def withExchange (e : Exchange) (s : State) : State := s.setRecord 2 e

/-- A BUSY tag of record 2: 24 bytes at offset 0. -/
def busyTag : Tag := ⟨.busy, some 2, 0, 24, .read, 8, 1, 3, .completion 3000⟩

/-- An ACTIVE exchange in record 2 with one piece out under tag 4, the rest unissued. -/
def piecesOut : State :=
  let e := { exchange .active .pending none with nextOffset := 24, piecesIssued := 1, outstanding := 1 }
  let s := ({ up with tp := { up.tp with requestConsumed := 1 } }.setRecord 2 e).setTag 4 busyTag
  { s with ia := { s.ia with orderList := [.exchange 2] } }

/-- A push of three bytes for node slot 1. -/
def push : Push := ⟨0, 1, 0x1028, [1, 2, 3], 1, false⟩

/-- A retention buffer of window 0. -/
def buffer : Buffer := ⟨true, 0, 1, 0x1000, List.replicate 128 9, some 5000⟩

/-- A request MU has not yet taken, in slot 1. -/
def held (body : MgmtBody) (addr : FabricAddr) : State :=
  { up with tp := { up.tp with slots := put up.tp.slots 1 (some ⟨7, 0x100, addr, body⟩), unserved := [1] } }

/-- The command answers this next state. -/
def answers (c : Instr) (s t : State) : Bool :=
  match exec c s with
  | .next u => decide (u = t)
  | .fault _ => false
  | .refused _ => false

/-! ### Witnesses: states and operands that meet the hypotheses of each statement, clause by clause -/

theorem witness_StepTakesTheFront :
    ({ loaded with pending := [.keep] } : State).pending = .keep :: [] ∧ loaded.pending = [] := by decide +kernel

theorem witness_ResetnLow :
    loaded.heldInReset.resetn = false ∧ loaded.heldInReset.heldInReset = loaded.heldInReset
      ∧ ∀ sta lrate tpermit, Instr.refokRise ≠ .powerOnReset sta lrate tpermit :=
  ⟨by decide +kernel, by decide +kernel, fun _ _ _ h => by cases h⟩

/-- In a frame, with these bytes after the lead. -/
def inFrame (bytes : List Byte) : LinePort := { State.reset.lp with assembler := .inFrame bytes }

/-- HUNT, with $A5 and another value; in a frame of 1, of 2 with the largest length, of 3 with length 0, and one byte before the last;
SEND; a length byte just too large; the last byte of the shortest and of the longest frame; eight data bits; a reply in SEND with RESETN high, and RESETN low. -/
theorem witness_CharactersAreGathered :
    loaded.resetn = true ∧ loaded.lp.hears = true ∧ loaded.lp.assembler = .hunt
      ∧ (inFrame [12]).hears = true ∧ (inFrame [12]).assembler = .inFrame [12] ∧ [12#8].length < 2
      ∧ ([12, 0x11] : List Byte).length = 2 ∧ (244#8).toNat ≤ 244
      ∧ 3 ≤ ([12, 0x11, 0] : List Byte).length ∧ ([12, 0x11, 0] : List Byte).length + 1 < (byteAt [12, 0x11, 0] 2).toNat + 5
      ∧ 3 ≤ ([12, 0x11, 1, 9] : List Byte).length
      ∧ ([12, 0x11, 1, 9] : List Byte).length + 1 < (byteAt [12, 0x11, 1, 9] 2).toNat + 5
      ∧ ({ loaded.lp with transmitter := .send [1] .nothing } : LinePort).hears = false ∧ 244 < (245#8).toNat
      ∧ ([12, 0x11, 0, 9] : List Byte).length + 1 = (byteAt [12, 0x11, 0, 9] 2).toNat + 5
      ∧ (12 :: 0x11 :: 244 :: List.replicate 245 (0 : Byte)).length + 1
          = (byteAt (12 :: 0x11 :: 244 :: List.replicate 245 0) 2).toNat + 5
      ∧ (dataBits 0xA5).length = 8 ∧ ({ loaded.lp with transmitter := .send [1] .nothing } : LinePort).transmitter = .send [1] .nothing
      ∧ loaded.heldInReset.resetn = false := by decide +kernel

/-- $A5 as it stands on the line (R1). -/
theorem test_character_levels :
    characterLevels 0xA5 = [false, true, false, true, false, false, true, false, true, true] := by decide +kernel

/-- A line held low for three characters, then high, then $A5: one framing error, one good character. -/
theorem test_line_held_low :
    LineReceiver.waiting.commands (List.replicate 30 false ++ true :: characterLevels 0xA5) = [.framingError, .goodCharacter 0xA5] := by
  decide +kernel

/-- An empty and a longest payload, in IDLE and, by broadcast, in WAIT. -/
theorem witness_LineFrameAccepted :
    loaded.resetn = true ∧ loaded.lp.assembler = .hunt ∧ ([] : List Byte).length ≤ 244 ∧ (List.replicate 244 (0 : Byte)).length ≤ 244
      ∧ loaded.lp.transmitter = .idle ∧ loaded.lp.answers = true ∧ waiting.hears = true ∧ waiting.assembler = .hunt := by
  decide +kernel

/-- A frame heard whole becomes the accepted request. -/
theorem test_line_frame :
    answers (.lineFrame (frameOf 12 RequestKind.read.code 1 [10, 0, 0, 40, 60])) loaded
      { loaded with lp := { waiting with accepted := [readRequest] } } = true := by decide +kernel

/-- A wrong CRC; a good CRC for another station, of a reply's kind, and of a broadcast READ. -/
theorem witness_LineFrameDropped :
    loaded.lp.hears = true ∧ ([0, 0] : List Byte).length = 2
      ∧ ([0, 0] : List Byte) ≠ beBytes 2 (crc16 [12, 0x11, BitVec.ofNat 8 0]).toNat
      ∧ (13#8 ≠ 31 ∧ 13#8 ≠ loaded.lp.station) ∧ requestKind ((0x81#8 >>> 4).setWidth 4) = none
      ∧ requestKind ((0x11#8 >>> 4).setWidth 4) ≠ some .push := by decide +kernel

/-- A Line Port with a reply decided, and one sending it. -/
def replying : LinePort := { waiting with transmitter := .wait (some ⟨⟨.done, 1, []⟩, .station⟩) }

theorem witness_RepliesGoOut :
    ({ loaded with lp := replying } : State).resetn = true ∧ replying.transmitter = .wait (some ⟨⟨.done, 1, []⟩, .station⟩)
      ∧ replying.assembler = .hunt ∧ ({ replying with assembler := .inFrame [12] } : LinePort).assembler = .inFrame [12]
      ∧ (∀ effect ∈ [ReplyEffect.nothing, .station, .restart],
          ({ waiting with transmitter := .send [0xA5] effect } : LinePort).transmitter = .send [0xA5] effect) := by decide +kernel

/-- loaded with a Last Reply Record that holds readRequest. -/
def remembered : State := { loaded with lp := { loaded.lp with lastReply := some (readRequest.signature, ⟨.data, 1, [5]⟩) } }

/-- A stored repeat; a READ of length 0, a POLL of one byte, broadcasts of four bytes and to unit 0. -/
theorem witness_RepeatsAndMalformedAreAnswered :
    remembered.Takes readRequest { remembered.lp with transmitter := .wait none } ∧ readRequest.kind ≠ .poll
      ∧ remembered.lp.lastReply = some (readRequest.signature, ⟨.data, 1, [5]⟩)
      ∧ loaded.Takes (request .read [10, 0, 0, 40, 0]) waiting ∧ loaded.replayFor (request .read [10, 0, 0, 40, 0]) = none
      ∧ (request .read [10, 0, 0, 40, 0]).wellFormed = false
      ∧ loaded.Takes (request .poll [1]) waiting ∧ (request .poll [1]).wellFormed = false
      ∧ loaded.Takes ⟨true, .push, 1, [10, 0, 0, 40]⟩ loaded.lp ∧ (⟨true, .push, 1, [10, 0, 0, 40]⟩ : LineRequest).wellFormed = false
      ∧ loaded.Takes ⟨true, .push, 1, [0, 0, 0, 40, 1]⟩ loaded.lp ∧ (⟨true, .push, 1, [0, 0, 0, 40, 1]⟩ : LineRequest).wellFormed = true
      ∧ (⟨true, .push, 1, [0, 0, 0, 40, 1]⟩ : LineRequest).unit = 0 := by decide +kernel

/-- No window for units 9 and 13; window 0 for its first and last unit, reached to its last byte, one past it, and QUIET. -/
theorem witness_ResolutionChecksInOrder :
    (∀ j : WinIx, (look loaded.tu.windows j).covers 9 = false) ∧ (∀ j : WinIx, (look loaded.tu.windows j).covers 13 = false)
      ∧ (look loaded.tu.windows 0).covers 10 = true ∧ (look loaded.tu.windows 0).covers 12 = true
      ∧ (∀ j : WinIx, j < 0 → (look loaded.tu.windows j).covers 10 = false)
      ∧ loaded.resolve .read 12 511 1 = .ok ⟨0, 1, 0x15FF, false, true, 2, 1⟩
      ∧ loaded.resolve .read 12 511 2 = .error (.range, 0)
      ∧ (loaded.setNode 1 { node with state := .quiet }).resolve .read 12 511 1 = .error (.nodeQuiet, 1) := by decide +kernel

/-- A table of eight ACTIVE exchanges under xno 0. -/
def full : State := { loaded with xu := ⟨Vector.replicate 8 { exchange .active .pending none with xno := 0 }, []⟩ }

theorem witness_RefusedOrBusyLeavesNoTrace :
    loaded.TakesNew (request .read [9, 0, 0, 0, 1]) waiting ∧ loaded.resolve .read 9 0 1 = .error (.noWindow, 9)
      ∧ loaded.TakesNew (request .write [10, 0, 2, 0, 1]) waiting ∧ loaded.resolve .write 10 512 1 = .error (.range, 0)
      ∧ full.TakesNew (request .push [9, 0, 0, 0, 1]) waiting ∧ full.resolve .push 9 0 1 = .error (.noWindow, 9)
      ∧ loaded.TakesNew (request .push [0, 0, 0, 0, 1]) waiting ∧ (request .push [0, 0, 0, 0, 1]).unit = 0
      ∧ (∀ j, (loaded.record j).state = .free ∨ (loaded.record j).xno ≠ 1)
      ∧ full.TakesNew readRequest waiting ∧ (∀ j, (full.record j).live = true ∧ (full.record j).xno ≠ 1)
      ∧ full.xu.answerOrder = [] ∧ full.ru.hit 0 0x1028 60 = none
      ∧ full.resolve .read 10 40 60 = .ok ⟨0, 1, 0x1028, false, true, 2, 472⟩
      ∧ full.TakesNew writeRequest waiting ∧ full.resolve .write 10 40 3 = .ok ⟨0, 1, 0x1028, false, true, 2, 472⟩ := by
  decide +kernel

/-- A table without a FREE record: record 7 ANSWERED, the rest ACTIVE, under xno 0. -/
def answeredLast : State :=
  { full with xu := ⟨put full.xu.records 7 { exchange .answered .ok (some 50000) with xno := 3 }, [7]⟩ }

theorem witness_ExchangesAreAccepted :
    loaded.TakesNew readRequest waiting ∧ loaded.TakesNew writeRequest waiting ∧ readRequest.unit ≠ 0
      ∧ (∀ j, (loaded.record j).state = .free ∨ (loaded.record j).xno ≠ 1)
      ∧ loaded.resolve .read 10 40 60 = .ok ⟨0, 1, 0x1028, false, true, 2, 472⟩ ∧ loaded.ru.hit 0 0x1028 60 = none
      ∧ loaded.resolve .write 10 40 3 = .ok ⟨0, 1, 0x1028, false, true, 2, 472⟩
      ∧ (loaded.record 0).state = .free ∧ (∀ j, j < 0 → (loaded.record j).state ≠ .free)
      ∧ answeredLast.TakesNew readRequest waiting ∧ answeredLast.TakesNew writeRequest waiting
      ∧ (∀ j, (answeredLast.record j).state = .free ∨ (answeredLast.record j).xno ≠ 1)
      ∧ (∀ j, (answeredLast.record j).state ≠ .free) ∧ answeredLast.xu.answerOrder.head? = some 7 := by decide +kernel

/-- loaded with two buffers that contain readRequest's bytes, buffer 3 used last. -/
def retained : State := { loaded with ru := ⟨put (put (Vector.replicate 4 Buffer.invalid) 0 buffer) 3 buffer, [0, 3]⟩ }

theorem witness_RetentionHitAnswers :
    retained.TakesNew readRequest waiting ∧ (∀ j, (retained.record j).state = .free ∨ (retained.record j).xno ≠ 1)
      ∧ retained.resolve .read 10 40 60 = .ok ⟨0, 1, 0x1028, false, true, 2, 472⟩ ∧ retained.ru.useOrder = [0] ++ 3 :: []
      ∧ (3 : BufIx) ∉ [(0 : BufIx)] ∧ (3 : BufIx) ∉ ([] : List BufIx)
      ∧ (look retained.ru.buffers 3).contains 0 0x1028 60 = true := by decide +kernel

/-- The live states, with readRequest's own signature and another; an ANSWERED record met by a request that does not resolve, and by one
that does. -/
theorem witness_HeldXnoAnswers :
    (∀ st ∈ [ExchangeState.queued, .active, .ready],
      (withExchange (exchange st .pending none) loaded).TakesNew readRequest waiting
        ∧ (withExchange (exchange st .pending none) loaded).TakesNew writeRequest waiting
        ∧ ((withExchange (exchange st .pending none) loaded).record 2).xno = 1
        ∧ ((withExchange (exchange st .pending none) loaded).record 2).live = true
        ∧ ((withExchange (exchange st .pending none) loaded).record 2).signature = readRequest.signature
        ∧ (∀ j, j < 2 → ((withExchange (exchange st .pending none) loaded).record j).live = false))
      ∧ readRequest.signature ≠ writeRequest.signature
      ∧ (withExchange (exchange .answered .ok (some 50000)) loaded).TakesNew (request .write [9, 0, 0, 0, 1]) waiting
      ∧ ((withExchange (exchange .answered .ok (some 50000)) loaded).record 2).state = .answered
      ∧ (∀ j, j ≠ 2 → ((withExchange (exchange .answered .ok (some 50000)) loaded).record j).state = .free)
      ∧ (request .write [9, 0, 0, 0, 1]).signature ≠ readRequest.signature
      ∧ (withExchange (exchange .answered .ok (some 50000)) loaded).resolve .write 9 0 1 = .error (.noWindow, 9)
      ∧ (withExchange (exchange .answered .ok (some 50000)) loaded).TakesNew writeRequest waiting ∧ writeRequest.unit ≠ 0 := by
  decide +kernel

/-- A WRITE under the xno of an ANSWERED READ takes its record's place (R21, R24). -/
theorem test_answered_xno_reused :
    (match exec writeRequest.command (withExchange (exchange .answered .ok (some 50000)) loaded) with
      | .next t => (t.record 2).state == .free && (t.record 0).state == .queued && (t.record 0).kind == .write
      | _ => false) = true := by decide +kernel

/-- A fault, a READ's bytes and a WRITE's DONE, in READY and in ANSWERED. -/
theorem witness_ResultIsDelivered :
    (∀ st ∈ [ExchangeState.ready, .answered], ∀ result ∈ [ExchangeResult.ok, .fault .timeout 0],
      (withExchange (exchange st result (some 50000)) loaded).TakesNew readRequest waiting
        ∧ ((withExchange (exchange st result (some 50000)) loaded).record 2).state = st
        ∧ ((withExchange (exchange st result (some 50000)) loaded).record 2).result = result
        ∧ ((withExchange (exchange st result (some 50000)) loaded).record 2).kind = .read
        ∧ ((withExchange (exchange st result (some 50000)) loaded).record 2).signature = readRequest.signature
        ∧ (∀ j, j ≠ 2 → ((withExchange (exchange st result (some 50000)) loaded).record j).state = .free)
        ∧ (2 : RecIx) ∉ (withExchange (exchange st result (some 50000)) loaded).xu.answerOrder)
      ∧ (withExchange { exchange .ready .ok (some 50000) with kind := .write, signature := writeRequest.signature }
          loaded).TakesNew writeRequest waiting := by decide +kernel

/-- A queue of `n` one-byte pushes, and one of 1021 bytes. -/
def pushes (n : Nat) : State := { loaded with pq := ⟨List.replicate n { push with payload := [1], issued := 0 }⟩ }
def heavy : State := { loaded with pq := ⟨[{ push with payload := List.replicate 1021 0, issued := 0 }]⟩ }

/-- A broadcast PUSH of three bytes to a unit without a window. -/
def strayBroadcast : LineRequest := ⟨true, .push, 1, [9, 0, 0, 0, 1, 2, 3]⟩

/-- The last place and the last byte; one place and one byte too many; addressed and by broadcast; a broadcast that does not resolve. -/
theorem witness_PushIsQueued :
    (∀ s ∈ [pushes 15, pushes 16, heavy],
      s.Takes pushRequest waiting ∧ s.replayFor pushRequest = none ∧ s.Takes { pushRequest with broadcast := true } loaded.lp
        ∧ s.resolve .push 10 40 3 = .ok ⟨0, 1, 0x1028, false, true, 2, 472⟩)
      ∧ pushRequest.wellFormed = true ∧ pushRequest.unit ≠ 0 ∧ pushRequest.data.length = 3
      ∧ (pushes 15).pq.pushes.length ≤ 15 ∧ heavy.pq.bytesHeld + 3 ≤ 1024 ∧ 16 ≤ (pushes 16).pq.pushes.length
      ∧ 1024 < heavy.pq.bytesHeld + 4
      ∧ loaded.Takes strayBroadcast loaded.lp ∧ strayBroadcast.broadcast = true ∧ strayBroadcast.kind = .push
      ∧ strayBroadcast.wellFormed = true ∧ strayBroadcast.unit ≠ 0
      ∧ loaded.resolve .push strayBroadcast.unit strayBroadcast.offset strayBroadcast.data.length = .error (.noWindow, 9) := by
  decide +kernel

/-- It is dropped and counted once (R71). -/
theorem test_stray_broadcast :
    answers strayBroadcast.command loaded { loaded with mu := loaded.mu.counts .broadcastDropped 1 } = true := by decide +kernel

/-- A notice of key ($100, 7, 0). -/
def notice (serial : Byte) (count : Nat) (sent reported : Bool) : Notice := ⟨serial, 0x100, 7, 0, count, sent, reported⟩

/-- A queue whose head was sent with the overrun flag reported, and one more. -/
def noticed : State := { loaded with nu := ⟨[notice 4 1 true true, notice 5 255 false false], 6, true⟩ }

/-- The acknowledgement that removes the head, one that does not, and an empty queue. -/
theorem witness_PollCollects :
    noticed.Takes (request .poll [1, 4]) waiting ∧ noticed.Takes (request .poll [1, 5]) waiting
      ∧ loaded.Takes (request .poll [0, 0]) waiting
      ∧ noticed.nu.queue = notice 4 1 true true :: [notice 5 255 false false] ∧ (1#8).getLsbD 0 = true
      ∧ (noticed.nu.overrun && !true) = false ∧ loaded.nu.queue = [] ∧ (notice 4 1 true true).serial ≠ 5 := by decide +kernel

/-- A fold at the largest count, an append, and a drop at 32 entries; by NTC in each receiving state and by self-notice. -/
theorem witness_NoticeArrives :
    noticed.nu.queue = [notice 4 1 true true] ++ notice 5 255 false false :: []
      ∧ (notice 5 255 false false).key = (0x100, 7, 0) ∧ (notice 4 1 true true).sent = true
      ∧ (∀ m ∈ loaded.nu.queue, m.sent = true) ∧ loaded.nu.queue.length < 32
      ∧ (∀ m ∈ List.replicate 32 (notice 0 1 false false), m.key ≠ (0x100, 8, 0)) ∧ 32 ≤ (List.replicate 32 (notice 0 1 false false)).length
      ∧ up.resetn = true ∧ up.tp.link = .up ∧ up.tp.nodeId ≠ 0 ∧ settling.tp.link = .settle ∧ settling.tp.nodeId ≠ 0
      ∧ ({ negotiating with tp := { negotiating.tp with nodeId := 5 } } : State).tp.link = .negotiate
      ∧ ({ loaded with reports := { Reports.none with offers := [⟨.tp, 5, 0xF001, 0⟩, ⟨.cu, 5, 0xF007, 3⟩] } } : State).reports.offers
          = [⟨.tp, 5, 0xF001, 0⟩] ++ ⟨.cu, 5, 0xF007, 3⟩ :: [] := by decide +kernel

/-- A READ of the identity, and one of the command region; the byte after the identity, and the last byte of the map with the one after it;
part of the settings and what follows it. -/
theorem witness_UnitZeroRead :
    loaded.TakesNew (request .read [0, 0, 0, 0, 14]) waiting ∧ loaded.TakesNew (request .read [0, 0, 4, 0, 2]) waiting
      ∧ (request .read [0, 0, 4, 0, 2]).unit = 0 ∧ loaded.readSpace 0x400 2 = .error (.access, 4)
      ∧ loaded.readSpace 0 14 = .ok identityBytes ∧ loaded.readSpace 14 1 = .error (.range, 0)
      ∧ loaded.readSpace 0x40FF 2 = .error (.range, 0) ∧ loaded.readSpace 0x401 1 = .error (.access, 4)
      ∧ loaded.readSpace 0x102 2 = .ok [10, 2] ∧ loaded.readSpace 0x104 1 = .ok [12] := by decide +kernel

/-- The image of a slot in quarantine, which a window holds, with the count that brought it there (Table 11-6). -/
theorem test_quiet_image :
    (loaded.setNode 1 { node with state := .quiet, count := 2 }).readSpace 0x2010 16
      = .ok [2, 1, 1, 0, 0, 64, 2, 3, 2, 2, 0, 0, 0, 0, 0, 0] := by decide +kernel

/-- Ranges that meet share no address; one byte more and they do. -/
theorem test_ranges_meet :
    buffer.overlaps 1 0x1080 4 = false ∧ buffer.overlaps 1 0x107F 4 = true ∧ buffer.overlaps 1 0xFFC 4 = false
      ∧ buffer.overlaps 1 0xFFC 5 = true ∧ buffer.overlaps 2 0x1000 4 = false := by decide +kernel

/-- All seven settings, the last one alone, the station at its bounds, and a fourth byte out of range. -/
theorem witness_SettingsAreWritten :
    loaded.TakesNew (unitZeroRequest 1 0x100 [1, 1, 1, 15, 30, 1, 0x7F]) waiting
      ∧ (∀ k, k < 7 → settingOk (0 + k) (byteAt [1, 1, 1, 15, 30, 1, 0x7F] k) = true)
      ∧ loaded.TakesNew (unitZeroRequest 1 0x106 [0x7F]) waiting ∧ settingOk 6 0x7F = true
      ∧ loaded.TakesNew (unitZeroRequest 1 0x100 [1, 1, 1, 16]) waiting ∧ settingOk (0 + 3) (byteAt [1, 1, 1, 16] 3) = false
      ∧ (∀ j, j < 3 → settingOk (0 + j) (byteAt [1, 1, 1, 16] j) = true)
      ∧ loaded.TakesNew (unitZeroRequest 1 0x104 [30]) waiting ∧ loaded.TakesNew (unitZeroRequest 1 0x104 [31]) waiting
      ∧ loaded.TakesNew (unitZeroRequest 1 0x104 [1]) waiting ∧ loaded.TakesNew (unitZeroRequest 1 0x104 [0]) waiting := by
  decide +kernel

/-- A WRITE of unit 0 reaches MU: the hold time becomes 9 (R15). -/
theorem test_write_unit_zero :
    (match exec (.write 1 [0, 0, 1, 0, 9]) loaded with
      | .next t => t.mu.settings.hold == 9 && t.xu == loaded.xu
      | _ => false) = true := by decide +kernel

/-- Unmapped, read-only, a part of an image, one byte of the command, and command codes 0 and 7. -/
theorem witness_RefusedWriteChangesNothing :
    loaded.TakesNew (unitZeroRequest 1 0x00000E [1]) waiting ∧ regionOf 0x00000E 1 = none
      ∧ loaded.TakesNew (unitZeroRequest 1 0x200 [1]) waiting ∧ regionOf 0x200 1 = some .status ∧ Region.status.writable = false
      ∧ loaded.TakesNew (unitZeroRequest 1 0x1000 [1]) waiting ∧ regionOf 0x1000 1 = some .windows
      ∧ loaded.TakesNew (unitZeroRequest 1 0x2010 [1]) waiting ∧ regionOf 0x2010 1 = some .nodes
      ∧ loaded.TakesNew (unitZeroRequest 1 0x400 [1]) waiting ∧ regionOf 0x400 1 = some .command
      ∧ loaded.TakesNew (unitZeroRequest 1 0x400 [0, 0]) waiting ∧ loaded.TakesNew (unitZeroRequest 1 0x400 [7, 0]) waiting
      ∧ loaded.writeSpace 0x200 [1] = .error (.access, 2) := by decide +kernel

/-- A window image for units 20..20 by slot 1, one that overlaps it, and a node image for node $101. -/
def windowImage : List Byte := [1, 1, 20, 20, 1, 8, 0, 0, 0, 0, 0, 0, 0, 0, 0, 1, 0] ++ List.replicate 15 0
def nodeImage : List Byte := [1, 0, 1, 1, 0, 64, 8, 1, 15] ++ List.replicate 7 0

theorem witness_ImagesAreLoaded :
    windowImage.length = 32 ∧ nodeImage.length = 16
      ∧ loaded.TakesNew (unitZeroRequest 1 0x11E0 windowImage) waiting ∧ loaded.tu.windowRefusal 15 windowImage = none
      ∧ loaded.TakesNew (unitZeroRequest 1 0x11E0 (windowImage.set 2 0)) waiting
      ∧ loaded.tu.windowRefusal 15 (windowImage.set 2 0) = some .unitZero
      ∧ loaded.TakesNew (unitZeroRequest 1 0x11C0 (windowImage ++ windowImage)) waiting
      ∧ loaded.tu.windowRefusal 14 windowImage = none
      ∧ (loaded.loadWindow 14 windowImage).tu.windowRefusal 15 windowImage = some .overlap
      ∧ (loaded.loadWindow 14 windowImage).tu.windowRefusal 15 (List.replicate 32 0) = none
      ∧ loaded.TakesNew (unitZeroRequest 1 0x11C0 (windowImage ++ List.replicate 32 0)) waiting
      ∧ loaded.TakesNew (unitZeroRequest 1 0x21F0 nodeImage) waiting ∧ loaded.nodeRefusal 31 nodeImage = none
      ∧ loaded.TakesNew (unitZeroRequest 1 0x2010 (List.replicate 16 0)) waiting
      ∧ loaded.nodeRefusal 1 (List.replicate 16 0) = some .inUse
      ∧ (loaded.loadNode 30 nodeImage).nodeRefusal 31 nodeImage = some .dupNode
      ∧ ((State.writeSpace 0x11C0 (windowImage ++ List.replicate 32 0) { loaded with lp := waiting }).toOption.map (·.2))
          = some .nothing := by decide +kernel

/-- What three window images for slots 13 to 15 leave, one after another. -/
def windowsLeft : Nat → State
  | 0 => loaded
  | 1 => loaded.loadWindow 13 windowImage
  | 2 => (loaded.loadWindow 13 windowImage).loadWindow 14 (List.replicate 32 0)
  | _ => ((loaded.loadWindow 13 windowImage).loadWindow 14 (List.replicate 32 0)).loadWindow 15 (List.replicate 32 0)

theorem witness_ImagesAreLoaded_windows : ∀ (k : Nat) (i : WinIx) (image : List Byte),
    [windowImage, List.replicate 32 0, List.replicate 32 0][k]? = some image → i.val = 13 + k →
    windowsLeft (k + 1) = (windowsLeft k).loadWindow i image ∧ (windowsLeft k).tu.windowRefusal i image = none := by
  intro k i image h hi
  match k with
  | 0 => cases h; rw [show i = 13 from Fin.ext hi]; exact ⟨rfl, by decide +kernel⟩
  | 1 => cases h; rw [show i = 14 from Fin.ext hi]; exact ⟨rfl, by decide +kernel⟩
  | 2 => cases h; rw [show i = 15 from Fin.ext hi]; exact ⟨rfl, by decide +kernel⟩
  | k + 3 => simp at h

/-- What two node images leave: slot 30 takes a node, slot 31 is freed. -/
def nodesLeft : Nat → State
  | 0 => loaded
  | 1 => loaded.loadNode 30 nodeImage
  | _ => (loaded.loadNode 30 nodeImage).loadNode 31 (List.replicate 16 0)

theorem witness_ImagesAreLoaded_nodes : ∀ (k : Nat) (i : SlotIx) (image : List Byte),
    [nodeImage, List.replicate 16 0][k]? = some image → i.val = 30 + k →
    nodesLeft (k + 1) = (nodesLeft k).loadNode i image ∧ (nodesLeft k).nodeRefusal i image = none := by
  intro k i image h hi
  match k with
  | 0 => cases h; rw [show i = 30 from Fin.ext hi]; exact ⟨rfl, by decide +kernel⟩
  | 1 => cases h; rw [show i = 31 from Fin.ext hi]; exact ⟨rfl, by decide +kernel⟩
  | k + 2 => simp at h

/-- A window that ends at the last fabric address, and one that ends past it; the largest span, and one byte more (R51). -/
theorem test_window_end :
    (windowOfImage ([1, 1, 20, 20, 1, 8, 0, 0, 0xFF, 0xFF, 0xFF, 0xFF, 0xFF, 0, 0, 0, 1] ++ List.replicate 15 0)).badValue = false
      ∧ (windowOfImage ([1, 1, 20, 20, 1, 8, 0, 0, 0xFF, 0xFF, 0xFF, 0xFF, 0xFF, 0, 0, 0, 2] ++ List.replicate 15 0)).badValue = true
      ∧ (windowOfImage ([1, 1, 20, 20, 1, 8, 0, 0, 0, 0, 0, 0, 0, 1, 0, 0, 0] ++ List.replicate 15 0)).badValue = false
      ∧ (windowOfImage ([1, 1, 20, 20, 1, 8, 0, 0, 0, 0, 0, 0, 0, 1, 0, 0, 1] ++ List.replicate 15 0)).badValue = true := by
  decide +kernel

theorem witness_ImageChecksInOrder :
    (byteAt (List.replicate 32 0) 0).getLsbD 0 = false ∧ (byteAt windowImage 0).getLsbD 0 = true
      ∧ byteAt (List.replicate 16 0) 0 = 0 ∧ byteAt nodeImage 0 ≠ 0 := by decide +kernel

theorem witness_ClearCounters :
    loaded.TakesNew (unitZeroRequest 1 0x400 [3, 0]) waiting ∧ (held (.rqw [3, 0]) 0x400).resetn = true
      ∧ (held (.rqw [3, 0]) 0x400).tp.unserved = 1 :: [] ∧ look (held (.rqw [3, 0]) 0x400).tp.slots 1 = some ⟨7, 0x100, 0x400, .rqw [3, 0]⟩
      ∧ (held (.rqw [3, 0]) 0x400).mu.settings.permit ≠ 0 := by decide +kernel

/-- Slots 32, 31 (UNUSED) and 1 (LIVE and QUIET). -/
theorem witness_ClearQuiet :
    (∀ arg ∈ [32#8, 31, 1], loaded.TakesNew (unitZeroRequest 1 0x400 [4, arg]) waiting
      ∧ (held (.rqw [4, arg]) 0x400).tp.unserved = 1 :: []
      ∧ look (held (.rqw [4, arg]) 0x400).tp.slots 1 = some ⟨7, 0x100, 0x400, .rqw [4, arg]⟩)
      ∧ 31 < (32#8).toNat ∧ (look loaded.tu.nodes 31).state = .unused ∧ (look loaded.tu.nodes 1).state ≠ .unused
      ∧ (loaded.setNode 1 { node with state := .quiet }).TakesNew (unitZeroRequest 1 0x400 [4, 1]) waiting := by decide +kernel

theorem witness_CommandsTakeEffect :
    (∀ code ∈ [1#8, 2, 5, 6], ∀ s ∈ [loaded, negotiating, settling, up], s.TakesNew (unitZeroRequest 1 0x400 [code, 0]) waiting)
      ∧ negotiating.tp.link = .negotiate ∧ settling.tp.link = .settle ∧ up.tp.link = .up ∧ loaded.tp.link = .awaitRef := by
  decide +kernel

/-- The permit withheld; an address at 2^24 and just below it; a read of the identity; each sort of accepted write. -/
theorem witness_HeldRequestIsServed :
    (held (.rqr 14) 0).tp.unserved = 1 :: [] ∧ look (held (.rqr 14) 0).tp.slots 1 = some ⟨7, 0x100, 0, .rqr 14⟩
      ∧ ({ held (.rqr 14) 0 with mu := { up.mu with settings := { up.mu.settings with permit := 0 } } } : State).mu.settings.permit = 0
      ∧ up.mu.settings.permit ≠ 0 ∧ 2 ^ 24 ≤ (0x1000000 : FabricAddr).toNat ∧ (0xFFFFFF : FabricAddr).toNat < 2 ^ 24
      ∧ (held (.rqr 1) 0xFFFFFF).readSpace 0xFFFFFF 1 = .error (.range, 0) ∧ (held (.rqr 14) 0).readSpace 0 14 = .ok identityBytes
      ∧ (held (.rqw [1]) 0).writeSpace 0 [1] = .error (.access, 0)
      ∧ ((held (.rqw [9]) 0x104).writeSpace 0x104 [9]).toOption.map (·.2) = some .station
      ∧ ((held (.rqw [1, 0]) 0x400).writeSpace 0x400 [1, 0]).toOption.map (·.2) = some .restart
      ∧ ((held (.rqw [2, 0]) 0x400).writeSpace 0x400 [2, 0]).toOption.map (·.2) = some .segreset
      ∧ ((held (.rqw [3, 0]) 0x400).writeSpace 0x400 [3, 0]).toOption.map (·.2) = some .nothing := by decide +kernel

theorem witness_TrunkWritesAreServed :
    (held (.rqw [9]) 0x104).resetn = true ∧ (held (.rqw [9]) 0x104).tp.unserved = 1 :: []
      ∧ look (held (.rqw [9]) 0x104).tp.slots 1 = some ⟨7, 0x100, 0x104, .rqw [9]⟩
      ∧ (0x104 : FabricAddr).toNat % 2 ^ 24 = (0x000104 : BitVec 24).toNat ∧ up.tp.unserved.head? = none := by decide +kernel

theorem witness_AnsweredHoldExpires :
    ((withExchange (exchange .answered .ok (some 50000)) loaded).record 2).state = .answered
      ∧ ((withExchange (exchange .answered .ok (some 50000)) loaded).record 2).holdTimer ≠ none := by decide +kernel

/-- A COOLING tag, and the states the four timers expire in. -/
def coolingTag : Tag := { busyTag with state := .cooling, timer := .coolDown 3000 }

theorem witness_ReadyTagAndBufferTimersExpire :
    ((withExchange (exchange .ready .ok (some 50000)) loaded).record 2).state = .ready
      ∧ ((withExchange (exchange .ready .ok (some 50000)) loaded).record 2).holdTimer ≠ none
      ∧ (2 : RecIx) ∉ (withExchange (exchange .ready .ok (some 50000)) loaded).xu.answerOrder
      ∧ (piecesOut.tag 4).state = .busy ∧ (piecesOut.tag 4).timer = .completion 3000
      ∧ ((loaded.setTag 31 coolingTag).tag 31).state = .cooling ∧ ((loaded.setTag 31 coolingTag).tag 31).timer = .coolDown 3000
      ∧ (look retained.ru.buffers 3).valid = true ∧ (look retained.ru.buffers 3).timer ≠ none := by decide +kernel

/-- ISOLATED with the segment hold timer running. -/
def isolated : State := { loaded with tp := { loaded.tp with link := .isolated, segmentHold := some 10000 } }

/-- FAILED, and NEGOTIATE in its eighth attempt. -/
def failed : State := { loaded with refok := true, tp := { loaded.tp with link := .failed, attempt := 8 } }
def lastAttempt : State := { negotiating with tp := { negotiating.tp with attempt := 8 } }

theorem witness_RefokStartsAndEndsNegotiation :
    isolated.resetn = true ∧ isolated.refok = false ∧ isolated.tp.link = .isolated ∧ isolated.tp.segmentHold ≠ none
      ∧ ({ isolated with refok := true } : State).tp.segmentHold ≠ none ∧ loaded.refok = false ∧ loaded.tp.link = .awaitRef
      ∧ isolated.tp.link ≠ .awaitRef ∧ negotiating.refok = true ∧ negotiating.tp.link = .negotiate ∧ settling.refok = true
      ∧ settling.tp.link = .settle ∧ up.refok = true ∧ up.tp.link = .up ∧ failed.refok = true ∧ failed.tp.link = .failed := by
  decide +kernel

theorem witness_LinkTimersExpire :
    negotiating.tp.link = .negotiate ∧ negotiating.tp.attemptTimer ≠ none ∧ negotiating.tp.attempt < 8
      ∧ ({ negotiating with tp := { negotiating.tp with attempt := 7 } } : State).tp.attempt < 8
      ∧ lastAttempt.tp.attemptTimer ≠ none ∧ 8 ≤ lastAttempt.tp.attempt ∧ negotiating.tp.capInterval ≠ none
      ∧ settling.tp.link = .settle ∧ settling.tp.settle ≠ none ∧ settling.tp.linkLoss ≠ none ∧ up.tp.linkLoss ≠ none
      ∧ up.ia.idleTimer ≠ none ∧ up.ia.transmitter = .free ∧ up.ia.creditClaim = false ∧ up.ia.cplClaims = [] ∧ up.pick = none
      ∧ settling.ia.idleTimer ≠ none ∧ settling.ia.transmitter = .free := by decide +kernel

/-- A far CAP: class 3, 256 bytes, limits 4 and 2, node ID 80. -/
def farCap : CapFields := ⟨3, 256, 4, 2, 80⟩

/-- NEGOTIATE with that CAP accepted and its CAPACK in SENDING. -/
def echoing (farCapack : Bool) : State :=
  { negotiating with
    tp := { negotiating.tp with farCap := some farCap, farCapack := farCapack }
    ia := { negotiating.ia with transmitter := .sending (.capack farCap) 1 (.capack true) } }

/-- UP with the CPL of slot 1 in SENDING. -/
def answering : State :=
  { held (.rqr 14) 0 with
    ia := { up.ia with idleTimer := none, transmitter := .sending (.cpl 0x100 7 0 0 []) 3 (.managementCpl 1 true true) } }

theorem witness_PacketEnds :
    (∀ s ∈ [negotiating, echoing false, echoing true, answering], s.resetn = true)
      ∧ negotiating.ia.transmitter = .sending (.cap gatewayCap) 1 .nothing
      ∧ answering.ia.transmitter = .sending (.cpl 0x100 7 0 0 []) 3 (.managementCpl 1 true true)
      ∧ (echoing false).ia.transmitter = .sending (.capack farCap) 1 (.capack true) ∧ (echoing false).tp.link = .negotiate
      ∧ (echoing false).tp.farCap = some farCap ∧ (echoing false).tp.farCapack = false ∧ (echoing true).tp.farCapack = true
      ∧ ({ up with ia := (echoing true).ia } : State).tp.link ≠ .negotiate := by decide +kernel

/-- The end of the second of the two CAPACKs completes the negotiation. -/
theorem test_negotiation_completes :
    (match exec .trunkPacketEnd (echoing true) with
      | .next t => t.tp.link == .settle && t.tp.nodeId == 80 && t.tp.rateClass == 3 && t.ia.idleTimer == some 250
      | _ => false) = true := by decide +kernel

/-- The smallest and the largest payload; this node ID, another, and none held. -/
theorem witness_ReceiverFilters :
    isolated.tp.link = .isolated ∧ loaded.tp.link = .awaitRef ∧ failed.tp.link = .failed ∧ negotiating.tp.link = .negotiate
      ∧ settling.tp.link = .settle ∧ up.tp.link = .up ∧ parsePacket [0x14, 0, 0, 0, 0] = none
      ∧ 1 ≤ ([0] : List Byte).length ∧ (List.replicate 512 (0 : Byte)).length ≤ 512 ∧ (5 : NodeId) = up.tp.nodeId ∧ (5 : NodeId) ≠ 0
      ∧ (6 : NodeId) ≠ up.tp.nodeId ∧ negotiating.tp.nodeId = 0 ∧ (MgmtBody.rqr 1).ok = true ∧ (MgmtBody.rqr 512).ok = true
      ∧ (MgmtBody.rqw (List.replicate 512 0)).ok = true ∧ 4096 ≤ (⟨4, 512, 2, 0, 0x1000⟩ : CapFields).nodeId.toNat
      ∧ 512 < (List.replicate 513 (0 : Byte)).length ∧ (MgmtBody.rqr 0).ok = false ∧ (MgmtBody.rqr 513).ok = false
      ∧ (MgmtBody.rqw []).ok = false := by decide +kernel

/-- A CAPACK whose node ID field has an upper bit set is bad, a CAP's is not (R183). -/
theorem test_node_id_upper_bits :
    parsePacket (Packet.capack ⟨4, 512, 2, 0, 0x1000⟩).bytes = none
      ∧ parsePacket (Packet.cap ⟨4, 512, 2, 0, 0x1000⟩).bytes = some (.cap ⟨4, 512, 2, 0, 0x1000⟩) := by decide +kernel

/-- Acceptable CAPs at both ends of their ranges, CAPs just outside, and both ends of a negotiation. -/
theorem witness_NegotiationPacketsAreJudged :
    capAcceptable ⟨1, 64, 0, 0, 1⟩ = true ∧ capAcceptable ⟨4, 512, 255, 255, 4094⟩ = true ∧ capAcceptable ⟨0, 64, 0, 0, 1⟩ = false
      ∧ capAcceptable ⟨5, 64, 0, 0, 1⟩ = false ∧ capAcceptable ⟨1, 63, 0, 0, 1⟩ = false ∧ capAcceptable ⟨1, 64, 0, 0, 0⟩ = false
      ∧ capAcceptable ⟨1, 64, 0, 0, 4095⟩ = false ∧ negotiating.tp.attempt < 8 ∧ 8 ≤ lastAttempt.tp.attempt
      ∧ settling.tp.link = .settle ∧ up.tp.link = .up ∧ negotiating.tp.acknowledged = false
      ∧ ({ echoing false with tp := { (echoing false).tp with acknowledged := true } } : State).tp.farCap = some farCap
      ∧ farCap ≠ ⟨4, 512, 2, 0, 0⟩ ∧ farCap.nodeId.toNat < 4096 ∧ gatewayCap.nodeId.toNat < 4096
      ∧ (⟨1, 64, 0, 0, 4095⟩ : CapFields).nodeId.toNat < 4096 := by decide +kernel

theorem witness_CreditRaisesLimits :
    settling.tp.link = .settle ∧ up.tp.link = .up ∧ negotiating.tp.link = .negotiate ∧ up.resetn = true
      ∧ ((131#8 : Byte) - up.tp.requestLimit).toNat = 127 ∧ ((132#8 : Byte) - up.tp.requestLimit).toNat = 128 := by decide +kernel

/-- Both slots held. -/
def bothHeld : State := { up with tp := { up.tp with slots := Vector.replicate 2 (some ⟨7, 0x100, 0, .rqr 1⟩) } }

theorem witness_IncomingRequestIsHeld :
    up.tp.nodeId ≠ 0 ∧ (MgmtBody.rqr 512).ok = true ∧ look up.tp.slots 0 = none ∧ (∀ j, j < 0 → look up.tp.slots j ≠ none)
      ∧ (∀ i : MgmtIx, look bothHeld.tp.slots i ≠ none) ∧ bothHeld.tp.link = .up ∧ settling.tp.link = .settle
      ∧ ({ negotiating with tp := { negotiating.tp with nodeId := 5 } } : State).tp.nodeId ≠ 0 := by decide +kernel

theorem witness_LateAndStrayAreDropped :
    ((up.setTag 31 coolingTag).tag 31).state = .cooling ∧ (up.tag 0).state = .free ∧ up.tp.nodeId ≠ 0 ∧ up.resetn = true
      ∧ (List.replicate 512 (0 : Byte)).length ≤ 512 ∧ settling.tp.link = .settle := by decide +kernel

/-- A refusal, in each link state that receives; eight bytes with eight to come; the last sixteen; one too many; too few with none to come. -/
theorem witness_BusyTagCompletes :
    piecesOut.tp.link = .up ∧ piecesOut.tp.nodeId ≠ 0
      ∧ (∀ link ∈ [LinkState.negotiate, .settle], ({ piecesOut with tp := { piecesOut.tp with link := link } } : State).tp.nodeId ≠ 0
          ∧ (({ piecesOut with tp := { piecesOut.tp with link := link } } : State).tag 4).state = .busy)
      ∧ (piecesOut.tag 4).state = .busy ∧ (piecesOut.tag 4).owner = some 2
      ∧ (piecesOut.tag 4).length - (piecesOut.tag 4).received = 16 ∧ (List.replicate 16 (0 : Byte)).length ≤ 16
      ∧ (8#16 : BitVec 16).toNat = 16 - (List.replicate 8 (0 : Byte)).length ∧ (8#16 : BitVec 16) ≠ 0
      ∧ (0#16 : BitVec 16).toNat = 16 - (List.replicate 16 (0 : Byte)).length ∧ 16 < (List.replicate 17 (0 : Byte)).length
      ∧ (0#16 : BitVec 16).toNat ≠ 16 - (List.replicate 15 (0 : Byte)).length := by decide +kernel

/-- The whole of a piece returns: the tag FREE, the bytes placed after the eight received, two reports made. -/
theorem test_cpl_ends_piece :
    (match exec (.cpl 5 4 0 0 (List.replicate 16 9)) piecesOut with
      | .next t => t.tag 4 == Tag.free && t.reports.pieceResults == [(2, .success)] && t.reports.nodeReports == [(1, .success)]
          && (t.record 2).readBuffer == List.replicate 8 7 ++ List.replicate 16 9 ++ List.replicate 36 7
      | _ => false) = true := by decide +kernel

/-- An exchange with one or two pieces out, all issued or not, and a result of its own waiting behind another record's. -/
def resultWaits (r : PieceResult) : State :=
  { piecesOut with reports := { Reports.none with pieceResults := [(3, .success), (2, r)] } }

theorem witness_PieceResultsAreTaken :
    (∀ r ∈ [PieceResult.success, .failure .timeout 0],
      (resultWaits r).reports.pieceResults = [(3, .success)] ++ (2, r) :: [] ∧ ((resultWaits r).record 2).state = .active
        ∧ ((resultWaits r).record 2).hasUnissued = true ∧ ((resultWaits r).record 2).outstanding = 1)
      ∧ ({ exchange .active .pending none with nextOffset := 60, outstanding := 2 } : Exchange).hasUnissued = false
      ∧ (∀ r ∈ [((3 : RecIx), PieceResult.success)], r.1 ≠ 2) := by decide +kernel

/-- The block of a fill. -/
def sameBlock (u : RetentionUnit) (j : BufIx) : Prop :=
  (look u.buffers j).valid = true ∧ (look u.buffers j).window = buffer.window ∧ (look u.buffers j).addr = buffer.addr
    ∧ (look u.buffers j).data.length = buffer.data.length

/-- A fill finds the identical block in buffer 3; buffer 1 invalid below another; every buffer valid with another window's block. -/
theorem witness_PieceResultsAreTaken_fill :
    (sameBlock ⟨put (Vector.replicate 4 Buffer.invalid) 3 buffer, [3]⟩ 3
        ∧ ∀ j, j ≠ 3 → ¬sameBlock ⟨put (Vector.replicate 4 Buffer.invalid) 3 buffer, [3]⟩ j)
      ∧ ((∀ j, ¬sameBlock ⟨put (Vector.replicate 4 Buffer.invalid) 0 { buffer with window := 1 }, [0]⟩ j)
        ∧ (∀ j, j < 1 → (look (put (Vector.replicate 4 Buffer.invalid) 0 { buffer with window := 1 }) j).valid = true))
      ∧ (∀ j, ¬sameBlock ⟨Vector.replicate 4 { buffer with window := 1 }, [2, 0, 1, 3]⟩ j)
      ∧ (∀ j, (look (Vector.replicate 4 { buffer with window := 1 }) j).valid = true) := by
  unfold sameBlock
  decide +kernel

/-- The last piece of a READ in record 2 has come back; XU has yet to take its success. -/
def lastPieceDone : State :=
  { up.setRecord 2 { exchange .active .pending none with nextOffset := 60, piecesIssued := 1, outstanding := 1 } with
    reports := { Reports.none with pieceResults := [(2, .success)] } }

/-- The link leaves UP between the success of a READ's last piece and XU's taking of it, and is UP again: READY, and no buffer (R123). -/
theorem test_no_fill_after_leaving_up :
    (match exec .refokFall lastPieceDone with
      | .next t =>
        (match exec (.pieceSuccess 2) { t with refok := true, tp := up.tp } with
          | .next u => (u.record 2).state == .ready && (u.record 2).result == .ok && u.ru == up.ru
          | _ => false)
      | _ => false) = true := by decide +kernel

/-- Taken before the leaving, it fills the lowest invalid buffer. -/
theorem test_fill :
    (match exec (.pieceSuccess 2) lastPieceDone with
      | .next u => (u.record 2).state == .ready && u.ru == ⟨put up.ru.buffers 0 ⟨true, 0, 1, 0x1028, List.replicate 60 7, some 5000⟩, [0]⟩
      | _ => false) = true := by decide +kernel

/-- Node reports for slot 1 behind one for slot 2, and the slot with its count at 14. -/
def reported (r : NodeReport) : State := { up with reports := { Reports.none with nodeReports := [(2, r), (1, r)] } }

/-- LIVE at the threshold, LIVE without one and just below one, QUIET at 15, UNUSED. -/
theorem witness_TimeoutReportIsCounted :
    (reported .timeout).reports.nodeReports = [(2, .timeout)] ++ (1, .timeout) :: []
      ∧ ((1 : SlotIx), NodeReport.timeout) ∉ [((2 : SlotIx), NodeReport.timeout)] ∧ node.state = .live ∧ node.threshold ≠ 0
      ∧ node.threshold.toNat ≤ min 15 (node.count + 1) ∧ min 15 (({ node with threshold := 3 } : Node).count + 1) < (3#8).toNat
      ∧ ({ node with threshold := 0 } : Node).threshold = 0 ∧ ({ node with state := .quiet, count := 15 } : Node).state = .quiet
      ∧ (look up.tu.nodes 2).state = .unused := by decide +kernel

theorem witness_SuccessReportClearsCount :
    (reported .success).reports.nodeReports = [(2, .success)] ++ (1, .success) :: []
      ∧ ((1 : SlotIx), NodeReport.success) ∉ [((2 : SlotIx), NodeReport.success)] ∧ (look up.tu.nodes 1).count = 1 := by decide +kernel

/-- piecesOut with reports of a quarantine and of the link's leaving UP, and one QUEUED exchange. -/
def reportsWait : State :=
  { piecesOut.setRecord 3 { exchange .queued .pending none with xno := 4 } with
    reports := { Reports.none with
      quietAtXu := [1], quietAtPq := [1], quietAtIa := [1], leftAtXu := [.loss], leftAtCu := [.loss], leftAtPq := [.loss]
      leftAtRu := [.loss], leftAtIa := [.loss], failedAtXu := 1, failedAtPq := 1 } }

theorem witness_QuarantineIsTaken :
    reportsWait.resetn = true ∧ (1 : SlotIx) ∈ reportsWait.reports.quietAtXu ∧ RecordsOk reportsWait.xu
      ∧ (reportsWait.record 2).outstanding = 1 ∧ (reportsWait.record 3).outstanding = 0 ∧ (reportsWait.record 3).hasUnissued = true := by
  decide +kernel

/-- Two pushes of a QUIET slot, the first one started, before one of an UNUSED slot. -/
def pushesWait : State :=
  { reportsWait.setNode 1 { node with state := .quiet } with
    pq := ⟨[push, { push with issued := 0 }, { push with slot := 2, issued := 0 }]⟩ }

/-- A head of the slot reported, with one more push of it behind; a head of another slot; a started head, an unstarted one, and none. -/
theorem witness_PushesAreCut :
    (1 : SlotIx) ∈ pushesWait.reports.quietAtPq
      ∧ pushesWait.pq.pushes = [push, { push with issued := 0 }] ++ [{ push with slot := 2, issued := 0 }]
      ∧ (∀ p ∈ pushesWait.pq.pushes.head?, p.slot = 1) ∧ (∀ p ∈ ([{ push with slot := 2 }] : List Push).head?, p.slot ≠ 1)
      ∧ (look pushesWait.tu.nodes push.slot).state = .quiet ∧ (look pushesWait.tu.nodes 2).state ≠ .quiet
      ∧ pushesWait.reports.leftAtPq = .loss :: [] ∧ 0 < push.issued ∧ ({ push with issued := 0 } : Push).issued = 0
      ∧ reportsWait.pq.pushes = [] ∧ reportsWait.reports.leftAtPq = .loss :: [] ∧ pushesWait.reports.failedAtPq = 0 + 1 := by decide +kernel

/-- The report of another slot leaves a head of a QUIET slot, whose own report has not been taken (R75). -/
theorem test_other_report_keeps_head :
    (match exec (.quarantineAtPq 3) { pushesWait with reports := { Reports.none with quietAtPq := [1, 3] } } with
      | .next t => t.pq == pushesWait.pq && t.reports.quietAtPq == [1]
      | _ => false) = true := by decide +kernel

theorem witness_LinkReportsAreTaken :
    reportsWait.resetn = true ∧ RecordsOk reportsWait.xu ∧ reportsWait.reports.leftAtXu = .loss :: []
      ∧ reportsWait.reports.leftAtCu = .loss :: [] ∧ reportsWait.reports.leftAtRu = .loss :: []
      ∧ reportsWait.reports.leftAtIa = .loss :: [] ∧ reportsWait.reports.failedAtXu = 0 + 1 := by decide +kernel

theorem witness_ClaimsGoInOrder :
    negotiating.ia.transmitter = .sending (.cap gatewayCap) 1 .nothing ∧ settling.tp.link ≠ .negotiate ∧ settling.tp.link ≠ .up
      ∧ (∀ capack cap, ({ echoing false with ia := { up.ia with capackClaim := capack, capClaim := cap } } : State).tp.farCap
          = some farCap)
      ∧ up.ia.transmitter = .free ∧ up.tp.link = .up ∧ up.ia.creditClaim = false ∧ up.ia.cplClaims = [] ∧ up.pick = none
      ∧ ({ up.ia with creditClaim := true } : IssueArbiter).creditClaim = true
      ∧ ({ up.ia with cplClaims := [⟨.keep, 0, true, false⟩] } : IssueArbiter).cplClaims = ⟨.keep, 0, true, false⟩ :: [] := by
  decide +kernel

/-- A QUEUED exchange alone on the Order List of a FREE transmitter, and a push. -/
def readyToIssue : State :=
  { withExchange { exchange .queued .pending none with xno := 1 } up with ia := { up.ia with orderList := [.exchange 2] } }
def pushToIssue (payload : List Byte) : State :=
  { up with pq := ⟨[{ push with payload := payload, issued := 0 }]⟩, ia := { up.ia with orderList := [.push] } }

theorem witness_PickObeysTheOrder :
    readyToIssue.pick = some ⟨.exchange 2, .read, 0, false, 1⟩ ∧ (pushToIssue [1, 2, 3]).pick = some ⟨.push, .push, 0, false, 1⟩ := by
  decide +kernel

/-- As pushToIssue, with a push of a QUIET slot behind. -/
def quietBehind : State :=
  { (pushToIssue [1, 2, 3]).setNode 3 { node with state := .quiet } with
    pq := ⟨[{ push with payload := [1, 2, 3], issued := 0 }, { push with slot := 3, issued := 0 }]⟩
    ia := { up.ia with orderList := [.push, .push] } }

/-- The first piece reaches to the next multiple of 64; a push within one piece, and one that crosses it; a QUIET slot behind. -/
theorem witness_PieceIsIssued :
    readyToIssue.resetn = true ∧ readyToIssue.tp.link = .up ∧ readyToIssue.ia.transmitter = .free ∧ readyToIssue.ia.creditClaim = false
      ∧ readyToIssue.ia.cplClaims = [] ∧ readyToIssue.pick = some ⟨.exchange 2, .read, 0, false, 1⟩
      ∧ (readyToIssue.tag 0).state = .free ∧ (∀ j, j < 0 → (readyToIssue.tag j).state ≠ .free)
      ∧ min (min (node.pieceSize.toNat) readyToIssue.tp.pieceMax.toNat - (0x1028 : FabricAddr).toNat % 64) (60 - 0) = 24
      ∧ (pushToIssue [1, 2, 3]).pick = some ⟨.push, .push, 0, false, 1⟩
      ∧ (pushToIssue (List.replicate 25 0)).pick = some ⟨.push, .push, 0, false, 1⟩
      ∧ min (64 - (0x1028 : FabricAddr).toNat % 64) 25 = 24
      ∧ quietBehind.pick = some ⟨.push, .push, 0, false, 1⟩ ∧ (look quietBehind.tu.nodes 3).state = .quiet := by decide +kernel

/-- The last piece of the head takes the QUIET push behind it along (R72, R75). -/
theorem test_quiet_behind_is_cut :
    quietBehind.arbitrate.pq.pushes = [] ∧ quietBehind.arbitrate.ia.orderList = []
      ∧ look quietBehind.arbitrate.mu.counters Counter.pushBytesCut.ix = 3 := by decide +kernel

/-- The RQR of that piece goes out: 24 bytes at $1028 for node $100 under tag 0. -/
theorem test_first_piece :
    readyToIssue.arbitrate.ia.transmitter = .sending (.rqr 0 0x100 5 0x1028 24) 3 .nothing
      ∧ readyToIssue.arbitrate.ia.orderList = [.exchange 2] ∧ (readyToIssue.arbitrate.record 2).state = .active := by decide +kernel

theorem witness_PacketsParseBack :
    (Packet.rqr 31 0xFFF 0xFFF 0xFFFFFFFFFF 512).formOk = true ∧ (Packet.rqw 0 0 0 0 [1]).formOk = true
      ∧ (Packet.psh 0 0 0 (List.replicate 512 0)).formOk = true ∧ (Packet.cpl 0 0 0 0 []).formOk = true := by decide +kernel

theorem witness_ImagesReadBack :
    windowImage.length = 32 ∧ (byteAt windowImage 0).getLsbD 0 = true ∧ loaded.tu.windowRefusal 15 windowImage = none
      ∧ nodeImage.length = 16 ∧ byteAt nodeImage 0 ≠ 0 ∧ loaded.nodeRefusal 31 nodeImage = none := by decide +kernel

theorem witness_NoticesAndPushesKept :
    NoticesOk noticed.nu ∧ OverrunOk noticed.nu ∧ PushesOk (pushes 16).pq := by decide +kernel

theorem witness_XnosAndOrderListKept :
    XnosOk piecesOut.xu ∧ OrderListOk piecesOut ∧ AnswerRanksOk piecesOut.xu := by decide +kernel

theorem witness_RecordsKept : OrderListOk piecesOut ∧ AnswerRanksOk piecesOut.xu ∧ RecordsOk piecesOut.xu := by decide +kernel

/-- A table of one BUSY tag keeps the law of tags. -/
theorem witness_OutstandingAndTagsKept :
    OutstandingOk piecesOut ∧ BusyCountsOk piecesOut ∧ NodesOk piecesOut.tu ∧ TagsOk piecesOut.cu := by
  refine ⟨by decide +kernel, by decide +kernel, by decide +kernel, fun t => ?_⟩
  by_cases h : 4 = t
  · subst h
    exact ⟨by decide +kernel, by decide +kernel⟩
  · have hfree : look piecesOut.cu.tags t = Tag.free := by
      rw [show piecesOut.cu.tags = put (Vector.replicate 32 Tag.free) 4 busyTag from rfl, look_put_other _ _ h, look_replicate]
    rw [hfree]
    rfl

theorem witness_AtMostFivePieces :
    OrderListOk piecesOut ∧ RecordsOk piecesOut.xu ∧ NodesOk piecesOut.tu ∧ NegotiationOk piecesOut ∧ CarvingOk piecesOut.xu :=
  ⟨by decide +kernel, by decide +kernel, by decide +kernel, by decide +kernel, by decide +kernel⟩

theorem witness_NothingSendableWaits : OrderListOk up ∧ AnswerRanksOk up.xu ∧ NothingWaits up := by decide +kernel

theorem witness_TablesKept : RelationsOk up.tu ∧ NodesOk up.tu := by decide +kernel

theorem witness_BuffersSettingsAndLineKept :
    BuffersOk retained.ru ∧ SettingsOk up.mu.settings ∧ LineOk (inFrame [12]) :=
  ⟨by decide +kernel, by decide +kernel, ⟨rfl, Or.inl (by decide)⟩⟩

theorem witness_LinkKept : LinkTimersOk up ∧ CreditsOk up ∧ NegotiationOk up := by decide +kernel

/-- The reset state is what the pulse of RESETN leaves with Config's straps. -/
theorem test_reset_is_power_on : answers (.powerOnReset 12 3 true) State.reset State.reset = true := by decide +kernel

end Sys2Proof.Tests
end

section
/-! The expiry of an exchange's hold timer (R30, R31): the equations of `State.holdExpires` that O29 needs. -/

namespace Sys2Proof.Machine

theorem exec_holdTimerExpiry (i : RecIx) (s : State) :
    exec (.holdTimerExpiry i) s = .next (s.whenRunning (·.holdExpires i)) := rfl

theorem State.freeRecord_eq (i : RecIx) (s : State) :
    s.freeRecord i = { s with xu := ⟨put s.xu.records i Exchange.free, s.xu.answerOrder.filter (· != i)⟩ } := rfl

/-- A running hold timer of an ANSWERED exchange frees its record and does nothing more (R31). -/
theorem State.holdExpires_of_answered {i : RecIx} {s : State} (hstate : (s.record i).state = .answered)
    (htimer : (s.record i).holdTimer ≠ none) : s.holdExpires i = s.freeRecord i := by
  simp [State.holdExpires, hstate, htimer]

/-- Settles O29: with RESETN high the command is XU's taking of the expiry, which for an ANSWERED exchange is `State.freeRecord`. -/
theorem answeredHoldExpires : Obligations.AnsweredHoldExpires := by
  intro s i hrunning hstate htimer
  rw [exec_holdTimerExpiry, State.whenRunning_true s _ hrunning, State.holdExpires_of_answered hstate htimer,
    State.freeRecord_eq]

end Sys2Proof.Machine
end

section
/-! A node report at TU (R61, R62): the oldest of its sort for a slot is taken out of the queue, and a success clears the slot's
count. -/

namespace Sys2Proof.Machine

theorem exec_successReport (i : SlotIx) (s : State) :
    exec (.successReport i) s = .next (s.whenRunning (·.takeNodeReport i .success (·.nodeSucceeds i))) := rfl

/-- A report that waits is taken where it first stands, and its effect is that on the state without it. -/
theorem State.takeNodeReport_of_first {i : SlotIx} {r : NodeReport} {before after : List (SlotIx × NodeReport)} {s : State}
    (effect : State → State) (hqueue : s.reports.nodeReports = before ++ (i, r) :: after) (hfirst : (i, r) ∉ before) :
    s.takeNodeReport i r effect = effect { s with reports := { s.reports with nodeReports := before ++ after } } := by
  have hwaits : s.reports.nodeReports.contains (i, r) = true := by simp [hqueue]
  have hrest : s.reports.nodeReports.erase (i, r) = before ++ after := by
    rw [hqueue, List.erase_append_right _ hfirst, List.erase_cons_head]
  rw [State.takeNodeReport, if_pos hwaits, State.onReports, hrest]

/-- A success touches the count of its slot alone (R62). -/
theorem State.nodeSucceeds_eq (i : SlotIx) (s : State) :
    s.nodeSucceeds i = { s with tu := { s.tu with nodes := put s.tu.nodes i { look s.tu.nodes i with count := 0 } } } := rfl

/-- Settles O42: with RESETN high the command is TU's taking of the report, whose effect is `State.nodeSucceeds`. -/
theorem successReportClearsCount : Obligations.SuccessReportClearsCount := by
  intro s i before after hrunning hqueue hfirst
  rw [exec_successReport, State.whenRunning_true s _ hrunning, State.takeNodeReport_of_first _ hqueue hfirst,
    State.nodeSucceeds_eq]

end Sys2Proof.Machine
end

section
/-! An arrival at NU (R134 to R137): by which case NU takes it, what an NTC for the gateway adds to that, and the taking of an
offered self-notice. -/

namespace Sys2Proof.Machine

/-! ### NU takes the arrival (R136) -/

theorem State.noticeArrives_fold {source : NodeId} {code : BitVec 16} {arg : BitVec 32} {s : State} {before : List Notice} {n : Notice}
    {after : List Notice} (hqueue : s.nu.queue = before ++ n :: after) (hunsent : n.sent = false) (hkey : n.key = (source, code, arg))
    (hfirst : ∀ m ∈ before, m.sent = true ∨ m.key ≠ (source, code, arg)) :
    s.noticeArrives source code arg =
      { s with nu := { s.nu with queue := before ++ { n with count := min 255 (n.count + 1) } :: after } } := by
  have folded := foldNotice_some before after hunsent hkey hfirst
  rw [← hqueue] at folded
  simp only [State.noticeArrives, folded, State.onNu]

theorem State.noticeArrives_append {source : NodeId} {code : BitVec 16} {arg : BitVec 32} {s : State}
    (hnew : ∀ m ∈ s.nu.queue, m.sent = true ∨ m.key ≠ (source, code, arg)) (hroom : s.nu.queue.length < Config.noticeEntries) :
    s.noticeArrives source code arg =
      { s with nu := { s.nu with
          queue := s.nu.queue ++ [⟨s.nu.serial, source, code, arg, 1, false, false⟩], serial := s.nu.serial + 1 } } := by
  simp only [State.noticeArrives, foldNotice_none hnew, if_pos hroom, State.onNu]

/-- With the queue full the arrival is dropped and counted (R137). -/
theorem State.noticeArrives_drop {source : NodeId} {code : BitVec 16} {arg : BitVec 32} {s : State}
    (hnew : ∀ m ∈ s.nu.queue, m.sent = true ∨ m.key ≠ (source, code, arg)) (hfull : Config.noticeEntries ≤ s.nu.queue.length) :
    s.noticeArrives source code arg =
      { s with nu := { s.nu with overrun := true }, mu := s.mu.counts .noticesDropped 1 } := by
  simp only [State.noticeArrives, foldNotice_none hnew, if_neg (Nat.not_lt.2 hfull)]
  rfl

/-- An arrival neither reads nor writes TP and the reports. -/
theorem State.noticeArrives_withTpReports (source : NodeId) (code : BitVec 16) (arg : BitVec 32) (tp : TrunkPort) (reports : Reports)
    (s : State) : { s with tp := tp, reports := reports }.noticeArrives source code arg =
      { s.noticeArrives source code arg with tp := tp, reports := reports } := by
  unfold State.noticeArrives
  simp only
  split
  · rfl
  · split <;> rfl

/-! ### An NTC for the gateway (R134, R147, R156) -/

theorem exec_ntc (source dest : NodeId) (code : BitVec 16) (arg : BitVec 32) (s : State) :
    exec (.ntc source dest code arg) s =
      .next (s.whenRunning (·.receive (.ntc source dest code arg) (·.noticeArrives source code arg))) := rfl

/-- A packet of good form that is not misrouted is handled, once it has restarted the link loss timer. -/
theorem State.receive_handled {p : Packet} {s : State} (handle : State → State) (hlink : s.tp.link.receives = true)
    (hform : p.formOk = true) (hroute : s.tp.misrouted p = false) : s.receive p handle = handle s.lossRestarts := by
  simp [State.receive, hlink, hform, hroute]

theorem TrunkPort.misrouted_ntc_self {source dest : NodeId} {code : BitVec 16} {arg : BitVec 32} {t : TrunkPort}
    (hdest : dest = t.nodeId) (hset : dest ≠ 0) : t.misrouted (.ntc source dest code arg) = false := by
  subst hdest
  have assigned : (t.nodeId == 0) = false := beq_eq_false_iff_ne.2 hset
  simp only [TrunkPort.misrouted, Packet.destination, assigned, bne_self_eq_false, Bool.or_false]

/-- In a state in which packets are taken an NTC for the gateway is NU's arrival. -/
theorem exec_ntc_self {source dest : NodeId} {code : BitVec 16} {arg : BitVec 32} {s : State} (hrunning : s.resetn = true)
    (hlink : s.tp.link.receives = true) (hdest : dest = s.tp.nodeId) (hset : dest ≠ 0) :
    exec (.ntc source dest code arg) s = .next (s.lossRestarts.noticeArrives source code arg) := by
  rw [exec_ntc, State.whenRunning_true _ _ hrunning,
    State.receive_handled _ hlink rfl (TrunkPort.misrouted_ntc_self hdest hset)]

/-- In NEGOTIATE a packet leaves the link loss timer. -/
theorem State.lossRestarts_negotiate {s : State} (hlink : s.tp.link = .negotiate) : s.lossRestarts = s := by
  simp [State.lossRestarts, hlink]

theorem State.lossRestarts_linked {s : State} (hlink : s.tp.link = .settle ∨ s.tp.link = .up) :
    s.lossRestarts = { s with tp := { s.tp with linkLoss := some (Config.ms s.mu.settings.linkLoss) } } := by
  rw [State.lossRestarts, if_pos hlink]
  rfl

/-! ### A self-notice taken (R135) -/

theorem exec_selfNotice (block : NoticeBlock) (s : State) : exec (.selfNotice block) s = .next (s.whenRunning (·.takeOffer block)) := rfl

/-- The block's oldest offer is taken out of the queue, and NU takes it as an arrival. -/
theorem State.takeOffer_of_first {block : NoticeBlock} {source : NodeId} {code : BitVec 16} {arg : BitVec 32}
    {before after : List Offer} {s : State} (hqueue : s.reports.offers = before ++ ⟨block, source, code, arg⟩ :: after)
    (hfirst : ∀ o ∈ before, o.block ≠ block) :
    s.takeOffer block =
      { s with reports := { s.reports with offers := before ++ after } }.noticeArrives source code arg := by
  have others : ∀ o ∈ before, ¬(o.block == block) = true := fun o ho => by simpa using hfirst o ho
  have found : s.reports.offers.find? (·.block == block) = some ⟨block, source, code, arg⟩ := by
    rw [hqueue, List.find?_append, List.find?_eq_none.2 others]
    simp
  have rest : s.reports.offers.eraseP (·.block == block) = before ++ after := by
    rw [hqueue, List.eraseP_append_right _ others, List.eraseP_cons_of_pos (by simp)]
  simp only [State.takeOffer, found, State.onReports, rest]

/-- Settles O18: NU's taking of an arrival is settled by the cases of R136, and both commands come down to it on a state that differs
in TP or in the reports alone. -/
theorem noticeArrives : Obligations.NoticeArrives := by
  intro s source code arg nu mu hcases hrunning
  have arrival : s.noticeArrives source code arg = { s with nu := nu, mu := mu } := by
    rcases hcases with ⟨before, n, after, hqueue, hunsent, hkey, hfirst, rfl, rfl⟩ | ⟨hnew, hroom, rfl, rfl⟩ | ⟨hnew, hfull, rfl, rfl⟩
    · exact State.noticeArrives_fold hqueue hunsent hkey hfirst
    · exact State.noticeArrives_append hnew hroom
    · exact State.noticeArrives_drop hnew hfull
  refine ⟨fun dest hdest hset => ⟨fun hlink => ?negotiate, fun hlink => ?linked⟩, fun block before after hqueue hfirst => ?offer⟩
  case negotiate =>
    rw [exec_ntc_self hrunning (by simp [hlink, LinkState.receives]) hdest hset, State.lossRestarts_negotiate hlink, arrival]
  case linked =>
    have receives : s.tp.link.receives = true := by rcases hlink with h | h <;> simp [h, LinkState.receives]
    rw [exec_ntc_self hrunning receives hdest hset, State.lossRestarts_linked hlink, State.noticeArrives_withTpReports, arrival]
  case offer =>
    rw [exec_selfNotice, State.whenRunning_true _ _ hrunning, State.takeOffer_of_first hqueue hfirst,
      State.noticeArrives_withTpReports, arrival]

end Sys2Proof.Machine
end

section
/-! A POLL at NU (R138, R139): what the acknowledgement leaves, the reply on that queue, and what the whole command comes to. -/

namespace Sys2Proof.Machine

/-! ### The acknowledgement (R138) -/

theorem NoticeUnit.acknowledge_removes {u : NoticeUnit} {h : Notice} {rest : List Notice} {ackValid : Bool} {serial : Byte}
    (hqueue : u.queue = h :: rest) (hvalid : ackValid = true) (hsent : h.sent = true) (hserial : h.serial = serial) :
    u.acknowledge ackValid serial = { u with queue := rest, overrun := u.overrun && !h.overrunReported } := by
  simp [NoticeUnit.acknowledge, hqueue, hvalid, hsent, hserial]

theorem NoticeUnit.acknowledge_keeps {u : NoticeUnit} {ackValid : Bool} {serial : Byte}
    (hkept : ∀ h ∈ u.queue.head?, ¬(ackValid = true ∧ h.sent = true ∧ h.serial = serial)) : u.acknowledge ackValid serial = u := by
  unfold NoticeUnit.acknowledge
  split
  · rfl
  · next h rest hqueue =>
    have hhead := hkept h (by simp [hqueue])
    rw [if_neg (by simpa [and_assoc] using hhead)]

/-! ### The reply (R139) -/

theorem NoticeUnit.markSent_nil {u : NoticeUnit} (hqueue : u.queue = []) : u.markSent = u := by
  simp [NoticeUnit.markSent, hqueue]

theorem NoticeUnit.markSent_cons {u : NoticeUnit} {h : Notice} {rest : List Notice} (hqueue : u.queue = h :: rest) :
    u.markSent = { u with queue := { h with sent := true, overrunReported := h.overrunReported || u.overrun } :: rest } := by
  simp [NoticeUnit.markSent, hqueue]

theorem NoticeUnit.pollReply_nil {u : NoticeUnit} (hqueue : u.queue = []) : u.pollReply = (.empty, []) := by
  simp [NoticeUnit.pollReply, hqueue]

theorem NoticeUnit.pollReply_cons {u : NoticeUnit} {h : Notice} {rest : List Notice} (hqueue : u.queue = h :: rest) :
    u.pollReply = (.notice, noticePayload h u.overrun) := by
  simp [NoticeUnit.pollReply, hqueue]

/-- The overrun byte of a NOTICE is 1 or 0 (Table 11-3). -/
theorem bitAt_zero (b : Bool) : bitAt b 0 = if b then 1 else 0 := by cases b <;> rfl

/-- The command, with NU as the acknowledgement leaves it: the reply is read off that queue, its head is marked, and LP is given the
reply without storing it (R13). -/
theorem exec_poll {s : State} {l : LinePort} {xno : Xno} {flags serial : Byte} {u : NoticeUnit}
    (htakes : s.Takes ⟨false, .poll, xno, [flags, serial]⟩ l) (hack : s.nu.acknowledge (flags.getLsbD 0) serial = u) :
    exec (.poll xno [flags, serial]) s = .next { s with
      lp := l.gives ⟨false, .poll, xno, [flags, serial]⟩ u.pollReply.1 u.pollReply.2, nu := u.markSent } := by
  subst hack
  exact exec_command_new (r := ⟨false, .poll, xno, [flags, serial]⟩) ⟨htakes, rfl, rfl, rfl⟩

/-- Settles O17: both forms of the acknowledgement leave the queue and the flag of the statement, and the reply is read off that queue. -/
theorem pollCollects : Obligations.PollCollects := by
  intro s l xno flags serial queue overrun htakes hcases
  have hack : s.nu.acknowledge (flags.getLsbD 0) serial = { s.nu with queue := queue, overrun := overrun } := by
    rcases hcases with ⟨h, hqueue, hvalid, hsent, hserial, rfl⟩ | ⟨hkept, rfl, rfl⟩
    · exact NoticeUnit.acknowledge_removes hqueue hvalid hsent hserial
    · exact NoticeUnit.acknowledge_keeps hkept
  refine ⟨fun hempty => ?empty, fun h rest hhead => ?notice⟩
  case empty =>
    rw [exec_poll htakes hack, NoticeUnit.pollReply_nil hempty, NoticeUnit.markSent_nil hempty, hempty]
  case notice =>
    rw [exec_poll htakes hack, NoticeUnit.pollReply_cons hhead, NoticeUnit.markSent_cons hhead, noticePayload, bitAt_zero]

end Sys2Proof.Machine
end

section
/-! A CREDIT at TP (R148, R162): in which link states it is taken, and what the taking makes of the two limits. -/

namespace Sys2Proof.Machine

theorem LinkState.receives_of_linked {l : LinkState} (h : l = .settle ∨ l = .up) : l.receives = true := by
  rcases h with rfl | rfl <;> rfl

theorem exec_credit (request push : Byte) (s : State) :
    exec (.credit request push) s =
      .next (s.whenRunning (·.receive (.credit request push) (·.takeCredit request push))) := rfl

/-- A CREDIT has no operand of bad form and no destination, so in every state in which packets are taken it is handled (R147). -/
theorem exec_credit_receives {request push : Byte} {s : State} (hrunning : s.resetn = true) (hlink : s.tp.link.receives = true) :
    exec (.credit request push) s = .next (s.lossRestarts.takeCredit request push) := by
  rw [exec_credit, State.whenRunning_true _ _ hrunning, State.receive_handled _ hlink rfl rfl]

theorem State.takeCredit_linked {request push : Byte} {s : State} (hlink : s.tp.link = .settle ∨ s.tp.link = .up) :
    s.takeCredit request push = State.arbitrate { s with
      tp := { s.tp with
        requestLimit := creditRaise s.tp.requestLimit request
        pushLimit := creditRaise s.tp.pushLimit push } } := by
  rw [State.takeCredit, if_pos hlink]
  rfl

/-- In NEGOTIATE a CREDIT is not taken (R148). -/
theorem State.takeCredit_negotiate {request push : Byte} {s : State} (hlink : s.tp.link = .negotiate) :
    s.takeCredit request push = s := by
  simp [State.takeCredit, hlink]

/-- Settles O36: a CREDIT is handled in each of the three link states. In SETTLE and UP it restarts the link loss timer and raises the
limits, each by `creditRaise`, which is the comparison of R162; in NEGOTIATE it does neither. -/
theorem creditRaisesLimits : Obligations.CreditRaisesLimits := by
  intro s request push hrunning
  refine ⟨fun hlink => ?linked, fun hlink => ?negotiate⟩
  case linked =>
    have hkept : s.lossRestarts.tp.link = .settle ∨ s.lossRestarts.tp.link = .up := by
      rwa [State.lossRestarts_linked hlink]
    rw [exec_credit_receives hrunning (LinkState.receives_of_linked hlink), State.takeCredit_linked hkept,
      State.lossRestarts_linked hlink]
    simp only [creditRaise]
  case negotiate =>
    have hreceives : s.tp.link.receives = true := by rw [hlink]; rfl
    rw [exec_credit_receives hrunning hreceives, State.lossRestarts_negotiate hlink, State.takeCredit_negotiate hlink]

end Sys2Proof.Machine
end


section
/-! What a change of state may keep: one field for each law of the invariants, under the laws that its statement assumes. Changes compose
(`Keeps.trans`), so a command keeps the laws because each of its operations does. -/

namespace Sys2Proof.Machine

/-- Every law that `s` meets, `t` meets, the xnos' uniqueness under the assumption `x`; the queue of commands is that of `s`. -/
structure State.Keeps (s t : State) (x : Prop := True) : Prop where
  pending : t.pending = s.pending := by rfl
  notices : NoticesOk s.nu → OverrunOk s.nu → NoticesOk t.nu ∧ OverrunOk t.nu := by exact fun h h' => ⟨h, h'⟩
  pushes : PushesOk s.pq → PushesOk t.pq := by exact fun h => h
  xnos : x → XnosOk s.xu → XnosOk t.xu := by exact fun _ h => h
  order : OrderListOk s → AnswerRanksOk s.xu → OrderListOk t ∧ AnswerRanksOk t.xu := by exact fun h h' => ⟨h, h'⟩
  records : OrderListOk s → AnswerRanksOk s.xu → RecordsOk s.xu → RecordsOk t.xu := by exact fun _ _ h => h
  outstanding : OrderListOk s → AnswerRanksOk s.xu → OutstandingOk s → OutstandingOk t := by exact fun _ _ h => h
  tags : TagsOk s.cu → TagsOk t.cu := by exact fun h => h
  busyCounts : NodesOk s.tu → BusyCountsOk s → BusyCountsOk t := by exact fun _ h => h
  nodes : NodesOk s.tu → NodesOk t.tu := by exact fun h => h
  relations : RelationsOk s.tu → NodesOk s.tu → RelationsOk t.tu := by exact fun h _ => h
  carving : OrderListOk s → AnswerRanksOk s.xu → RecordsOk s.xu → NodesOk s.tu → NegotiationOk s → CarvingOk s.xu → CarvingOk t.xu := by
    exact fun _ _ _ _ _ h => h
  buffers : BuffersOk s.ru → BuffersOk t.ru := by exact fun h => h
  settings : SettingsOk s.mu.settings → SettingsOk t.mu.settings := by exact fun h => h
  line : LineOk s.lp → LineOk t.lp := by exact fun h => h
  timers : LinkTimersOk s → LinkTimersOk t := by exact fun h => h
  credits : CreditsOk s → CreditsOk t := by exact fun h => h
  negotiation : NegotiationOk s → NegotiationOk t := by exact fun h => h

namespace State.Keeps

variable {s t u : State} {x : Prop}

theorem refl (s : State) : s.Keeps s x := {}

theorem trans (h₁ : s.Keeps t x) (h₂ : t.Keeps u x) : s.Keeps u x where
  pending := h₂.pending.trans h₁.pending
  notices hn ho := let ⟨hn', ho'⟩ := h₁.notices hn ho; h₂.notices hn' ho'
  pushes h := h₂.pushes (h₁.pushes h)
  xnos hx h := h₂.xnos hx (h₁.xnos hx h)
  order ho ha := let ⟨ho', ha'⟩ := h₁.order ho ha; h₂.order ho' ha'
  records ho ha h := let ⟨ho', ha'⟩ := h₁.order ho ha; h₂.records ho' ha' (h₁.records ho ha h)
  outstanding ho ha h := let ⟨ho', ha'⟩ := h₁.order ho ha; h₂.outstanding ho' ha' (h₁.outstanding ho ha h)
  tags h := h₂.tags (h₁.tags h)
  busyCounts hn h := h₂.busyCounts (h₁.nodes hn) (h₁.busyCounts hn h)
  nodes h := h₂.nodes (h₁.nodes h)
  relations h hn := h₂.relations (h₁.relations h hn) (h₁.nodes hn)
  carving ho ha hr hn hneg h :=
    let ⟨ho', ha'⟩ := h₁.order ho ha
    h₂.carving ho' ha' (h₁.records ho ha hr) (h₁.nodes hn) (h₁.negotiation hneg) (h₁.carving ho ha hr hn hneg h)
  buffers h := h₂.buffers (h₁.buffers h)
  settings h := h₂.settings (h₁.settings h)
  line h := h₂.line (h₁.line h)
  timers h := h₂.timers (h₁.timers h)
  credits h := h₂.credits (h₁.credits h)
  negotiation h := h₂.negotiation (h₁.negotiation h)

theorem weaken (h : s.Keeps t) : s.Keeps t x := { h with xnos := fun _ => h.xnos trivial }

theorem of_eq (h : t = s) : s.Keeps t := h ▸ refl s

/-- A choice keeps what both branches keep. -/
theorem ite {c : Prop} [Decidable c] (h₁ : c → s.Keeps t x) (h₂ : ¬c → s.Keeps u x) : s.Keeps (if c then t else u) x := by
  split
  · next h => exact h₁ h
  · next h => exact h₂ h

/-! ### A change of one block -/

theorem onLp {f : LinePort → LinePort} (h : LineOk s.lp → LineOk (f s.lp)) : s.Keeps (s.onLp f) := { line := h }

theorem onRu {f : RetentionUnit → RetentionUnit} (h : BuffersOk s.ru → BuffersOk (f s.ru)) : s.Keeps (s.onRu f) := { buffers := h }

theorem onNu {f : NoticeUnit → NoticeUnit} (h : NoticesOk s.nu → OverrunOk s.nu → NoticesOk (f s.nu) ∧ OverrunOk (f s.nu)) :
    s.Keeps (s.onNu f) := { notices := h }

theorem onMu {f : ManagementUnit → ManagementUnit} (h : SettingsOk s.mu.settings → SettingsOk (f s.mu).settings) :
    s.Keeps (s.onMu f) := { settings := h }

theorem onTu {f : TranslationUnit → TranslationUnit} (hn : NodesOk s.tu → NodesOk (f s.tu))
    (hr : RelationsOk s.tu → NodesOk s.tu → RelationsOk (f s.tu)) : s.Keeps (s.onTu f) :=
  { nodes := hn, relations := hr }

/-- IA's claims, its transmitter and its idle timer are under no law but O56's. -/
theorem onIa {f : IssueArbiter → IssueArbiter} (h : (f s.ia).orderList = s.ia.orderList) : s.Keeps (s.onIa f) where
  order ho ha :=
    ⟨⟨(congrArg (List.count .push) h).trans ho.1, fun i => (congrArg (List.count (.exchange i)) h).trans (ho.2 i)⟩, ha⟩

/-- The reports but the piece results are under no law. -/
theorem onReports {f : Reports → Reports} (h : (f s.reports).pieceResults = s.reports.pieceResults) : s.Keeps (s.onReports f) where
  outstanding _ _ ho i :=
    (congrArg (fun results => s.cu.ownedBy i + results.countP fun r => r.1 == i) h).trans (ho i)

theorem bump (c : Counter) (n : Nat) (s : State) : s.Keeps (s.bump c n) := onMu fun h => h

theorem offer (c : NoticeCode) (arg : Nat) (s : State) : s.Keeps (s.offer c arg) :=
  ite (fun _ => onReports rfl) fun _ => refl s

end State.Keeps

end Sys2Proof.Machine
end


section
/-! LP's law (R3, R11): what the receive assembler, the turnaround and a handler's answer make of it. -/

namespace Sys2Proof.Machine

theorem lineOk_of_hunt {l : LinePort} (h : l.assembler = .hunt) : LineOk l := by
  simp only [LineOk, h]

theorem lineOk_inFrame {l : LinePort} {bytes : List Byte} (h : l.assembler = .inFrame bytes) (hears : l.hears = true)
    (hlen : bytes.length < 3 ∨ (byteAt bytes 2).toNat ≤ 244 ∧ bytes.length < (byteAt bytes 2).toNat + 5) : LineOk l := by
  simp only [LineOk, h]
  exact ⟨hears, hlen⟩

/-- The law stands where the assembler does and the receiver is not switched off. -/
theorem lineOk_of_same {l m : LinePort} (ha : m.assembler = l.assembler) (hh : l.hears = true → m.hears = true) (h : LineOk l) :
    LineOk m := by
  cases hl : l.assembler with
  | hunt => exact lineOk_of_hunt (ha.trans hl)
  | inFrame bytes =>
    simp only [LineOk, hl] at h
    exact lineOk_inFrame (ha.trans hl) (hh h.1) h.2

theorem byteAt_append {bytes : List Byte} {i : Nat} (b : Byte) (h : i < bytes.length) : byteAt (bytes ++ [b]) i = byteAt bytes i := by
  simp [byteAt, List.getElem?_append_left h]

namespace State.Keeps

variable {s : State}

theorem frameLost (s : State) : s.Keeps s.frameLost :=
  (onLp fun _ => lineOk_of_hunt rfl).trans (bump _ _ _)

theorem breakFrame (s : State) : s.Keeps s.breakFrame := by
  unfold State.breakFrame
  split
  · split
    · exact refl s
    · exact frameLost s
  · exact refl s

theorem frameEnds (bytes : List Byte) (s : State) : s.Keeps (s.frameEnds bytes) :=
  ite (fun _ => onLp fun _ => lineOk_of_hunt rfl) fun _ => frameLost s

/-- A byte that neither ends the frame nor is a length above 244 leaves room for the next (R3). -/
theorem gather {bytes : List Byte} {b : Byte} (hears : s.lp.hears = true) (ha : s.lp.assembler = .inFrame bytes) :
    s.Keeps (s.gather (bytes ++ [b])) := by
  refine ite (fun _ => frameLost s) fun hlong => ite (fun _ => frameEnds _ s) fun hmore => onLp fun hline => ?_
  refine lineOk_inFrame rfl hears ?_
  simp only [LineOk, ha] at hline
  rw [Config.maxLinePayload] at hlong
  rw [List.length_append, List.length_singleton] at hlong hmore ⊢
  obtain h | h | h : bytes.length < 2 ∨ bytes.length = 2 ∨ 3 ≤ bytes.length := by omega
  · exact .inl (by omega)
  · exact .inr (by omega)
  · rw [byteAt_append b (by omega)] at hmore ⊢
    exact .inr (by omega)

theorem hear (b : Byte) (s : State) : s.Keeps (s.hear b) := by
  unfold State.hear
  split
  · next hears =>
    split
    · exact ite (fun _ => onLp fun _ => lineOk_inFrame rfl hears (.inl (by simp))) fun _ => refl s
    · next bytes ha => exact gather hears ha
  · exact refl s

theorem hearAll (chars : List Byte) (s : State) : s.Keeps (chars.foldl (fun u b => u.hear b) s) := by
  induction chars generalizing s with
  | nil => exact refl s
  | cons b chars ih => exact (hear b s).trans (ih _)

end State.Keeps

/-- In WAIT a frame begun is abandoned, so none stands when the reply goes out (R11). -/
theorem State.breakFrame_hunt {s : State} (h : s.lp.hears = true) : s.breakFrame.lp.assembler = .hunt := by
  unfold State.breakFrame
  rw [if_pos h]
  split
  · next ha => exact ha
  · rfl

theorem State.Keeps.turnaroundEnds (s : State) : s.Keeps s.turnaroundEnds := by
  unfold State.turnaroundEnds
  split
  · next h ht =>
    have hears : s.lp.hears = true := by simp [LinePort.hears, ht]
    exact (State.Keeps.breakFrame s).trans (.onLp fun _ => lineOk_of_hunt (State.breakFrame_hunt hears))
  all_goals exact .refl s

/-- An answer puts the transmitter in WAIT, in which the receiver is on. -/
theorem State.Keeps.answer (r : LineRequest) (kind : ReplyKind) (payload : List Byte) (stored : Bool) (effect : ReplyEffect) (s : State) :
    s.Keeps (s.answer r kind payload stored effect) :=
  .onLp (lineOk_of_same rfl fun _ => rfl)

theorem State.Keeps.answerFault (r : LineRequest) (e : FaultCode × BitVec 16) (s : State) : s.Keeps (s.answerFault r e) :=
  .answer ..

theorem State.Keeps.answerBusy (r : LineRequest) (code : Byte) (s : State) : s.Keeps (s.answerBusy r code) :=
  (State.Keeps.answer ..).trans (.bump ..)

/-- Handing a request over leaves the assembler, and the receiver on where it was. -/
theorem LinePort.take_lineOk {r : LineRequest} {l m : LinePort} (h : l.take r = some m) (hl : LineOk l) : LineOk m := by
  unfold LinePort.take at h
  split at h
  · split at h
    · cases h; exact hl
    · cases h
  · split at h
    · cases h
    · split at h
      · cases h; exact hl
      · split at h
        · cases h; exact lineOk_of_same (l := l) rfl (fun _ => rfl) hl
        · cases h

end Sys2Proof.Machine
end


section
/-! RU's law (R119): a buffer renewed, a buffer emptied, and the buffers of a test invalidated. -/

namespace Sys2Proof.Machine

theorem Buffer.invalid_not_valid : Buffer.invalid.valid = false := rfl

/-- A buffer that takes valid contents takes the highest rank (R119). -/
theorem buffersOk_renew {u : RetentionUnit} {i : BufIx} {b : Buffer} (hvalid : b.valid = true) (htimer : b.timer ≠ none)
    (h : BuffersOk u) : BuffersOk ⟨put u.buffers i b, u.useOrder.filter (· != i) ++ [i]⟩ := by
  obtain ⟨hnodup, hranks, hbufs⟩ := h
  refine ⟨?_, fun j => ?_, fun j => ?_⟩
  · exact List.nodup_append'.2 ⟨hnodup.filter _, List.nodup_singleton i, by simp [List.disjoint_singleton]⟩
  · by_cases hj : i = j
    · subst hj; simp [hvalid]
    · simp [look_put_other _ _ hj, hranks j, Ne.symm hj]
  · by_cases hj : i = j
    · subst hj; simpa [hvalid] using htimer
    · simpa only [look_put_other _ _ hj] using hbufs j

/-- A buffer that is emptied loses its rank, and the others close up (R119). -/
theorem buffersOk_empty {u : RetentionUnit} {i : BufIx} (h : BuffersOk u) :
    BuffersOk ⟨put u.buffers i Buffer.invalid, u.useOrder.filter (· != i)⟩ := by
  obtain ⟨hnodup, hranks, hbufs⟩ := h
  refine ⟨hnodup.filter _, fun j => ?_, fun j => ?_⟩
  · by_cases hj : i = j
    · subst hj; simp [Buffer.invalid]
    · simp [look_put_other _ _ hj, hranks j, Ne.symm hj]
  · by_cases hj : i = j
    · subst hj; simp [Buffer.invalid]
    · simpa only [look_put_other _ _ hj] using hbufs j

theorem buffersOk_invalidate (p : Buffer → Bool) {u : RetentionUnit} (h : BuffersOk u) : BuffersOk (u.invalidate p) := by
  obtain ⟨hnodup, hranks, hbufs⟩ := h
  refine ⟨hnodup.filter _, fun j => ?_, fun j => ?_⟩
  · have := hranks j
    cases hp : p (look u.buffers j) <;> cases hv : (look u.buffers j).valid <;>
      simp_all [RetentionUnit.invalidate, Buffer.invalid]
  · have := hbufs j
    cases hp : p (look u.buffers j) <;> cases hv : (look u.buffers j).valid <;>
      simp_all [RetentionUnit.invalidate, Buffer.invalid]

theorem buffersOk_fill (window : WinIx) (slot : SlotIx) (addr : FabricAddr) (data : List Byte) (interval : Nat) {u : RetentionUnit}
    (h : BuffersOk u) : BuffersOk (u.fill window slot addr data interval) := by
  unfold RetentionUnit.fill
  split
  · exact buffersOk_renew rfl (by simp) h
  · exact h

/-- A buffer that a READ hits is valid (R121). -/
theorem RetentionUnit.hit_valid {u : RetentionUnit} {window : WinIx} {addr : FabricAddr} {length : Nat} {i : BufIx}
    (h : u.hit window addr length = some i) : (look u.buffers i).valid = true := by
  have := List.find?_some h
  simp only [Buffer.contains, Bool.and_eq_true] at this
  exact this.1.1.1

theorem buffersOk_touch {u : RetentionUnit} {i : BufIx} (interval : Nat) (hvalid : (look u.buffers i).valid = true) (h : BuffersOk u) :
    BuffersOk (u.touch i interval) :=
  buffersOk_renew hvalid (by simp) h

theorem buffersOk_expire (i : BufIx) {u : RetentionUnit} (h : BuffersOk u) : BuffersOk (u.expire i) := by
  unfold RetentionUnit.expire
  split
  · exact buffersOk_empty h
  · exact h

theorem State.Keeps.offerFill (e : Exchange) (s : State) : s.Keeps (s.offerFill e) :=
  .ite (fun _ => .onRu (buffersOk_fill _ _ _ _ _)) fun _ => .refl s

theorem State.Keeps.buffersInvalidated (s : State) : s.Keeps s.buffersInvalidated := .onRu (buffersOk_invalidate _)

end Sys2Proof.Machine
end


section
/-! NU's laws (R132, R133, R139): an arrival, the acknowledgement, the head marked sent, and the queue emptied. -/

namespace Sys2Proof.Machine

/-- The serial of an appended entry follows those the queue holds (R132). -/
theorem serialsOf_succ (serial : Byte) (n : Nat) : serialsOf (serial + 1) (n + 1) = serialsOf serial n ++ [serial] := by
  induction n with
  | zero => simp [serialsOf]
  | succ n ih =>
    rw [serialsOf, ih, serialsOf, List.cons_append]
    congr 1
    bv_omega

/-- The search for a key answers a decomposition of the queue at the entry it folds into. -/
theorem foldNotice_eq_some {source : NodeId} {code : BitVec 16} {arg : BitVec 32} {queue q : List Notice}
    (h : foldNotice source code arg queue = some q) : ∃ before n after, queue = before ++ n :: after
      ∧ q = before ++ { n with count := min 255 (n.count + 1) } :: after := by
  induction queue generalizing q with
  | nil => simp [foldNotice] at h
  | cons m ms ih =>
    rw [foldNotice] at h
    split at h
    · cases h
      exact ⟨[], m, ms, rfl, rfl⟩
    · obtain ⟨q', hq', rfl⟩ := Option.map_eq_some_iff.1 h
      obtain ⟨before, n, after, rfl, rfl⟩ := ih hq'
      exact ⟨m :: before, n, after, rfl, rfl⟩

/-- With nothing folded, no unsent entry holds the key. -/
theorem foldNotice_eq_none {source : NodeId} {code : BitVec 16} {arg : BitVec 32} {queue : List Notice}
    (h : foldNotice source code arg queue = none) : ∀ m ∈ queue, m.sent = true ∨ m.key ≠ (source, code, arg) := by
  induction queue with
  | nil => simp
  | cons m ms ih =>
    rw [foldNotice] at h
    split at h
    · cases h
    · next hm =>
      intro k hk
      obtain rfl | hk := List.mem_cons.1 hk
      · simp only [Bool.and_eq_true, Bool.not_eq_true', Notice.hasKey_eq, decide_eq_true_eq, not_and] at hm
        cases hs : k.sent with
        | true => exact .inl rfl
        | false => exact .inr (hm hs)
      · exact ih (Option.map_eq_none_iff.1 h) k hk

/-- One entry of a list replaced: what held of every entry, and holds of the new one, holds of every entry. -/
theorem forall_mem_replace {α : Type} {P : α → Prop} {before after : List α} {a b : α} (h : ∀ x ∈ before ++ a :: after, P x) (hb : P b) :
    ∀ x ∈ before ++ b :: after, P x := by
  intro x hx
  rcases List.mem_append.1 hx with hx | hx
  · exact h x (by simp [hx])
  · rcases List.mem_cons.1 hx with rfl | hx
    · exact hb
    · exact h x (by simp [hx])

/-! ### An arrival -/

theorem noticesOk_fold {u : NoticeUnit} {before after : List Notice} {n : Notice} (hq : u.queue = before ++ n :: after)
    (h : NoticesOk u) : NoticesOk { u with queue := before ++ { n with count := min 255 (n.count + 1) } :: after } := by
  obtain ⟨hlen, hserials, hcounts, hsent, hkeys⟩ := h
  rw [hq] at hlen hserials hcounts hsent hkeys
  refine ⟨by simpa using hlen, by simpa using hserials, forall_mem_replace hcounts ?_, ?_, ?_⟩
  · show 1 ≤ min 255 (n.count + 1) ∧ min 255 (n.count + 1) ≤ 255
    omega
  · cases before with
    | nil => exact hsent
    | cons m ms => exact forall_mem_replace hsent (hsent n (by simp))
  · simpa only [List.filter_append, List.filter_cons, Notice.key, List.map_append, apply_ite, List.map_cons] using hkeys

theorem overrunOk_fold {u : NoticeUnit} {before after : List Notice} {n : Notice} (hq : u.queue = before ++ n :: after)
    (h : OverrunOk u) : OverrunOk { u with queue := before ++ { n with count := min 255 (n.count + 1) } :: after } := by
  obtain ⟨hreported, hoverrun⟩ := h
  rw [hq] at hreported hoverrun
  refine ⟨forall_mem_replace hreported (hreported n (by simp)), fun ho => ⟨by simp, ?_⟩⟩
  have head := (hoverrun ho).2
  cases before <;> simpa using head

theorem noticesOk_append {u : NoticeUnit} {source : NodeId} {code : BitVec 16} {arg : BitVec 32}
    (hnew : ∀ m ∈ u.queue, m.sent = true ∨ m.key ≠ (source, code, arg)) (hroom : u.queue.length < 32) (h : NoticesOk u) :
    NoticesOk { u with queue := u.queue ++ [⟨u.serial, source, code, arg, 1, false, false⟩], serial := u.serial + 1 } := by
  obtain ⟨hlen, hserials, hcounts, hsent, hkeys⟩ := h
  refine ⟨by simpa using hroom, ?_, ?_, ?_, ?_⟩
  · rw [List.length_append, List.length_singleton, serialsOf_succ, List.map_append, hserials]
    rfl
  · intro m hm
    rcases List.mem_append.1 hm with hm | hm
    · exact hcounts m hm
    · rw [List.mem_singleton.1 hm]
      exact ⟨le_refl _, by norm_num⟩
  · cases hq : u.queue with
    | nil => simp
    | cons h rest =>
      rw [hq] at hsent
      simpa [or_imp, forall_and] using hsent
  · rw [List.filter_append, List.map_append]
    refine List.nodup_append'.2 ⟨hkeys, by simp, ?_⟩
    simp only [List.disjoint_left, List.mem_map, List.mem_filter, Bool.not_eq_true']
    rintro _ ⟨m, ⟨hm, hs⟩, rfl⟩ hk
    rcases hnew m hm with h | h
    · simp [hs] at h
    · simp [Notice.key] at hk h
      obtain ⟨hsource, hcode, harg⟩ := hk
      exact h hsource.symm hcode.symm harg.symm

theorem overrunOk_append {u : NoticeUnit} (n : Notice) (serial : Byte) (hn : n.overrunReported = false) (h : OverrunOk u) :
    OverrunOk { u with queue := u.queue ++ [n], serial := serial } := by
  obtain ⟨hreported, hoverrun⟩ := h
  refine ⟨fun m hm => ?_, fun ho => ⟨by simp, ?_⟩⟩
  · rcases List.mem_append.1 hm with hm | hm
    · exact hreported m hm
    · simp [List.mem_singleton.1 hm, hn]
  · obtain ⟨hne, head⟩ := hoverrun ho
    intro m hm hs hr
    have := head m (by rwa [List.head?_append_of_ne_nil _ hne] at hm) hs hr
    simp
    omega

theorem overrunOk_full {u : NoticeUnit} (hfull : 32 ≤ u.queue.length) (h : OverrunOk u) : OverrunOk { u with overrun := true } :=
  ⟨h.1, fun _ => ⟨fun he => by simp [show u.queue = [] from he] at hfull, fun _ _ _ _ => by show 2 ≤ u.queue.length; omega⟩⟩

theorem State.Keeps.noticeArrives (source : NodeId) (code : BitVec 16) (arg : BitVec 32) (s : State) :
    s.Keeps (s.noticeArrives source code arg) := by
  unfold State.noticeArrives
  split
  · next q hq =>
    obtain ⟨before, n, after, hqueue, rfl⟩ := foldNotice_eq_some hq
    exact .onNu fun h h' => ⟨noticesOk_fold hqueue h, overrunOk_fold hqueue h'⟩
  · next hnone =>
    split
    · next hroom =>
      exact .onNu fun h h' => ⟨noticesOk_append (foldNotice_eq_none hnone) hroom h, overrunOk_append _ _ rfl h'⟩
    · next hfull =>
      exact (State.Keeps.onNu fun h h' => ⟨h, overrunOk_full (Nat.le_of_not_lt hfull) h'⟩).trans (.bump ..)

/-! ### A POLL, and the queue emptied -/

theorem noticesOk_tail {u : NoticeUnit} {h : Notice} {rest : List Notice} (overrun : Bool) (hq : u.queue = h :: rest)
    (hok : NoticesOk u) : NoticesOk { u with queue := rest, overrun := overrun } := by
  obtain ⟨hlen, hserials, hcounts, hsent, hkeys⟩ := hok
  rw [hq] at hlen hserials hcounts hsent hkeys
  refine ⟨?_, ?_, fun m hm => hcounts m (by simp [hm]), fun m hm => hsent m (List.mem_of_mem_tail hm), ?_⟩
  · simp only [List.length_cons] at hlen
    show rest.length ≤ 32
    omega
  · simp only [List.map_cons, List.length_cons, serialsOf, List.cons.injEq] at hserials
    exact hserials.2
  · exact hkeys.sublist (((List.sublist_cons_self h rest).filter _).map _)

theorem NoticeUnit.acknowledge_ok {u : NoticeUnit} (ackValid : Bool) (serial : Byte) (hn : NoticesOk u) (ho : OverrunOk u) :
    NoticesOk (u.acknowledge ackValid serial) ∧ OverrunOk (u.acknowledge ackValid serial) := by
  unfold NoticeUnit.acknowledge
  split
  · exact ⟨hn, ho⟩
  · next h rest hq =>
    split
    · next hack =>
      refine ⟨noticesOk_tail _ hq hn, ?_⟩
      obtain ⟨-, -, -, hunsent, -⟩ := hn
      obtain ⟨hreported, hoverrun⟩ := ho
      rw [hq] at hunsent hreported hoverrun
      have hsent : h.sent = true := by
        simp only [Bool.and_eq_true] at hack
        exact hack.1.2
      refine ⟨fun m hm => hreported m (by simp [hm]), fun hover => ?_⟩
      simp only [Bool.and_eq_true, Bool.not_eq_true'] at hover
      have two := (hoverrun hover.1).2 h rfl hsent hover.2
      refine ⟨fun he => by simp [show rest = [] from he] at two, fun m hm hs => ?_⟩
      rw [hunsent m (List.mem_of_mem_head? hm)] at hs
      cases hs
    · exact ⟨hn, ho⟩

theorem NoticeUnit.markSent_ok {u : NoticeUnit} (hn : NoticesOk u) (ho : OverrunOk u) :
    NoticesOk u.markSent ∧ OverrunOk u.markSent := by
  unfold NoticeUnit.markSent
  split
  · exact ⟨hn, ho⟩
  · next h rest hq =>
    obtain ⟨hlen, hserials, hcounts, hunsent, hkeys⟩ := hn
    obtain ⟨hreported, hoverrun⟩ := ho
    rw [hq] at hlen hserials hcounts hunsent hkeys hreported
    refine ⟨⟨by simpa using hlen, by simpa using hserials, ?_, hunsent, ?_⟩, ?_, fun hover => ⟨by simp, ?_⟩⟩
    · intro m hm
      rcases List.mem_cons.1 hm with rfl | hm
      · exact hcounts h (by simp)
      · exact hcounts m (by simp [hm])
    · rw [List.filter_cons_of_neg (by simp)]
      exact hkeys.sublist (((List.sublist_cons_self h rest).filter _).map _)
    · intro m hm
      rcases List.mem_cons.1 hm with rfl | hm
      · exact fun _ => rfl
      · exact hreported m (by simp [hm])
    · intro m hm _ hr
      cases hm
      simp [show u.overrun = true from hover] at hr

theorem NoticeUnit.emptied_ok (u : NoticeUnit) : NoticesOk u.emptied ∧ OverrunOk u.emptied := by
  simp [NoticeUnit.emptied, NoticesOk, OverrunOk, serialsOf]

theorem State.Keeps.emptied (s : State) : s.Keeps (s.onNu NoticeUnit.emptied) := .onNu fun _ _ => NoticeUnit.emptied_ok _

theorem State.Keeps.pollRequest (r : LineRequest) (s : State) : s.Keeps (s.pollRequest r) :=
  (State.Keeps.onNu fun hn ho =>
    let ⟨hn', ho'⟩ := NoticeUnit.acknowledge_ok r.ackValid r.ackSerial hn ho
    NoticeUnit.markSent_ok hn' ho').trans (.answer ..)

end Sys2Proof.Machine
end


section
/-! The laws of MU's settings (R171) and of TU's tables (R50, R54, R56): a settings write, an accepted image, the quarantine count. -/

namespace Sys2Proof.Machine

/-! ### Settings -/

/-- Setting one field to a value of its range keeps every range. -/
theorem settingsOk_set {place : Nat} {b : Byte} {t : Settings} (hb : settingOk place b = true) (h : SettingsOk t) :
    SettingsOk (t.set place b) := by
  unfold settingOk at hb
  unfold Settings.set
  split at hb <;> simp only [Bool.and_eq_true, decide_eq_true_eq, reduceCtorEq] at hb <;> simp only [SettingsOk] at h ⊢ <;> omega

theorem settingsOk_setRun {place : Nat} {data : List Byte} {t : Settings} (hb : firstBadSetting place data = none) (h : SettingsOk t) :
    SettingsOk (t.setRun place data) := by
  induction data generalizing place t with
  | nil => exact h
  | cons b bs ih =>
    rw [firstBadSetting] at hb
    split at hb
    · next hfirst => exact ih hb (settingsOk_set hfirst h)
    · cases hb

theorem settingsOk_por (sta : BitVec 5) (tpermit : Bool) : SettingsOk (Settings.por sta tpermit) := by
  have := sta.isLt
  simp only [SettingsOk, Settings.por]
  refine ⟨by decide, by decide, by decide, by decide, by decide, ?_, ?_, by decide⟩
  · rw [BitVec.toNat_setWidth]
    omega
  · cases tpermit <;> decide

/-! ### Node slots -/

theorem nodeOk_of_used {n : Node} (h : n.state ≠ .unused) : n.ok ↔ 1 ≤ n.nodeId.toNat ∧ n.nodeId.toNat ≤ 4094
    ∧ (n.pieceSize = 64 ∨ n.pieceSize = 128 ∨ n.pieceSize = 256 ∨ n.pieceSize = 512)
    ∧ 1 ≤ n.limit.toNat ∧ n.limit.toNat ≤ 8 ∧ 1 ≤ n.timeout.toNat ∧ n.threshold.toNat ≤ 15 ∧ n.count ≤ 15 := by
  rw [Node.ok, if_neg h]

theorem nodeOk_unused : Node.unused.ok := by simp [Node.ok, Node.unused]

/-- A node slot that is not UNUSED takes another state in use and another count within 15. -/
theorem nodeOk_recount {n : Node} {st : NodeState} {count : Nat} (hn : n.state ≠ .unused) (hst : st ≠ .unused) (hcount : count ≤ 15)
    (h : n.ok) : Node.ok { n with state := st, count := count } := by
  obtain ⟨hid, hid', hsize, hlim, hlim', htime, hthr, -⟩ := (nodeOk_of_used hn).1 h
  exact (nodeOk_of_used (n := { n with state := st, count := count }) hst).2 ⟨hid, hid', hsize, hlim, hlim', htime, hthr, hcount⟩

/-- An image that passes check 1 of R56 describes a node within the ranges. -/
theorem nodeOk_ofImage {b : List Byte} (h : nodeImageOk b = true) : (nodeOfImage b).ok := by
  simp only [nodeImageOk, Bool.and_eq_true, Bool.or_eq_true, decide_eq_true_eq, beq_iff_eq] at h
  obtain ⟨⟨⟨⟨⟨⟨⟨⟨-, hid⟩, hid'⟩, hsize⟩, hlim⟩, hlim'⟩, htime⟩, hthr⟩, -⟩ := h
  refine (nodeOk_of_used (by simp [nodeOfImage])).2 ⟨?_, ?_, ?_, hlim, hlim', htime, hthr, Nat.zero_le _⟩
  · simp only [nodeOfImage, BitVec.toNat_ofNat]; omega
  · simp only [nodeOfImage, BitVec.toNat_ofNat]; omega
  · simp only [nodeOfImage]
    rcases hsize with ((h | h) | h) | h <;> rw [h] <;> decide

theorem nodesOk_put {u : TranslationUnit} {i : SlotIx} {n : Node} (hn : n.ok) (h : NodesOk u) :
    NodesOk { u with nodes := put u.nodes i n } := by
  intro j
  show (look (put u.nodes i n) j).ok
  rw [look_put]
  split
  · exact hn
  · exact h j

/-! ### The relations -/

/-- A node slot in use takes a record in use with its node ID: the relations stand. -/
theorem relationsOk_putUsed {u : TranslationUnit} {i : SlotIx} {n : Node} (hi : (look u.nodes i).state ≠ .unused)
    (hn : n.state ≠ .unused) (hid : n.nodeId = (look u.nodes i).nodeId) (h : RelationsOk u) :
    RelationsOk { u with nodes := put u.nodes i n } := by
  obtain ⟨hslots, hids, hunits⟩ := h
  have same : ∀ j, ((look (put u.nodes i n) j).state ≠ .unused ↔ (look u.nodes j).state ≠ .unused)
      ∧ (look (put u.nodes i n) j).nodeId = (look u.nodes j).nodeId := by
    intro j
    rw [look_put]
    split
    · next hj => subst hj; exact ⟨iff_of_true hn hi, hid⟩
    · exact ⟨Iff.rfl, rfl⟩
  refine ⟨fun w hw => (same _).1.2 (hslots w hw), fun j k hjk hj hk => ?_, hunits⟩
  show (look (put u.nodes i n) j).nodeId ≠ (look (put u.nodes i n) k).nodeId
  rw [(same j).2, (same k).2]
  exact hids j k hjk ((same j).1.1 hj) ((same k).1.1 hk)

/-- A node slot that no valid window names takes an UNUSED record. -/
theorem relationsOk_putUnused {u : TranslationUnit} {i : SlotIx}
    (hi : ∀ w : WinIx, (look u.windows w).valid = true → (look u.windows w).slot ≠ i) (h : RelationsOk u) :
    RelationsOk { u with nodes := put u.nodes i Node.unused } := by
  obtain ⟨hslots, hids, hunits⟩ := h
  have stands : ∀ j, (look (put u.nodes i Node.unused) j).state ≠ .unused → i ≠ j := by
    rintro j hj rfl
    simp [Node.unused] at hj
  refine ⟨fun w hw => ?_, fun j k hjk hj hk => ?_, hunits⟩
  · show (look (put u.nodes i Node.unused) (look u.windows w).slot).state ≠ .unused
    rw [look_put_other _ _ (Ne.symm (hi w hw))]
    exact hslots w hw
  · show (look (put u.nodes i Node.unused) j).nodeId ≠ (look (put u.nodes i Node.unused) k).nodeId
    have hij := stands j hj
    have hik := stands k hk
    simp only [look_put_other _ _ hij, look_put_other _ _ hik] at hj hk ⊢
    exact hids j k hjk hj hk

/-- A LIVE record takes its slot where no other slot in use holds its node ID (R56). -/
theorem relationsOk_putNew {u : TranslationUnit} {i : SlotIx} {n : Node} (hn : n.state ≠ .unused)
    (hnew : ∀ j, j ≠ i → (look u.nodes j).state ≠ .unused → (look u.nodes j).nodeId ≠ n.nodeId) (h : RelationsOk u) :
    RelationsOk { u with nodes := put u.nodes i n } := by
  obtain ⟨hslots, hids, hunits⟩ := h
  refine ⟨fun w hw => ?_, fun j k hjk hj hk => ?_, hunits⟩
  · show (look (put u.nodes i n) (look u.windows w).slot).state ≠ .unused
    rw [look_put]
    split
    · exact hn
    · exact hslots w hw
  · simp only [look_put] at hj hk ⊢
    by_cases hij : i = j <;> by_cases hik : i = k
    · exact absurd (hij.symm.trans hik) hjk
    · rw [if_pos hij] at hj ⊢
      rw [if_neg hik] at hk ⊢
      exact (hnew k (Ne.symm hik) hk).symm
    · rw [if_neg hij] at hj ⊢
      rw [if_pos hik] at hk ⊢
      exact hnew j (Ne.symm hij) hj
    · rw [if_neg hij] at hj ⊢
      rw [if_neg hik] at hk ⊢
      exact hids j k hjk hj hk

theorem Window.sharesUnit_comm (a b : Window) : a.sharesUnit b = b.sharesUnit a := by
  simp [Window.sharesUnit, Bool.and_comm]

/-- A window takes its slot where its node slot is in use and no other valid window shares a unit with it (R50). -/
theorem relationsOk_putWindow {u : TranslationUnit} {i : WinIx} {w : Window}
    (hslot : w.valid = true → (look u.nodes w.slot).state ≠ .unused)
    (hunits : w.valid = true → ∀ j, j ≠ i → (look u.windows j).valid = true → (look u.windows j).sharesUnit w = false)
    (h : RelationsOk u) : RelationsOk { u with windows := put u.windows i w } := by
  obtain ⟨hslots, hids, hshare⟩ := h
  refine ⟨fun j hj => ?_, hids, fun j k hjk hj hk => ?_⟩
  · simp only [look_put] at hj ⊢
    by_cases hij : i = j
    · rw [if_pos hij] at hj ⊢; exact hslot hj
    · rw [if_neg hij] at hj ⊢; exact hslots j hj
  · simp only [look_put] at hj hk ⊢
    by_cases hij : i = j <;> by_cases hik : i = k
    · exact absurd (hij.symm.trans hik) hjk
    · rw [if_pos hij] at hj ⊢
      rw [if_neg hik] at hk ⊢
      rw [Window.sharesUnit_comm]
      exact hunits hj k (Ne.symm hik) hk
    · rw [if_neg hij] at hj ⊢
      rw [if_pos hik] at hk ⊢
      exact hunits hk j (Ne.symm hij) hj
    · rw [if_neg hij] at hj ⊢
      rw [if_neg hik] at hk ⊢
      exact hshare j k hjk hj hk

/-! ### Accepted images -/

theorem TranslationUnit.overlapsOther_false {u : TranslationUnit} {i : WinIx} {w : Window} (h : u.overlapsOther i w = false) :
    ∀ j, j ≠ i → (look u.windows j).valid = true → (look u.windows j).sharesUnit w = false := by
  intro j hj hv
  have := firstIx_none.1 (Option.isSome_eq_false_iff.1 h |> Option.isNone_iff_eq_none.1) j
  simpa [hj, hv] using this

theorem TranslationUnit.otherHolds_false {u : TranslationUnit} {i : SlotIx} {id : NodeId} (h : u.otherHolds i id = false) :
    ∀ j, j ≠ i → (look u.nodes j).state ≠ .unused → (look u.nodes j).nodeId ≠ id := by
  intro j hj hv
  have := firstIx_none.1 (Option.isSome_eq_false_iff.1 h |> Option.isNone_iff_eq_none.1) j
  simpa [hj, hv] using this

theorem relationsOk_acceptedWindow {u : TranslationUnit} {i : WinIx} {image : List Byte} (hpass : u.windowRefusal i image = none)
    (h : RelationsOk u) : RelationsOk { u with windows := put u.windows i (acceptedWindow image) } := by
  unfold TranslationUnit.windowRefusal at hpass
  by_cases hvalid : (byteAt image 0).getLsbD 0 = true
  · have hw : acceptedWindow image = windowOfImage image := if_pos hvalid
    rw [hw]
    simp only [hvalid, Bool.true_eq_false, if_false] at hpass
    split at hpass
    · cases hpass
    split at hpass
    · cases hpass
    split at hpass
    · cases hpass
    next hslot =>
    split at hpass
    · cases hpass
    next hover =>
    exact relationsOk_putWindow (fun _ he => hslot (.inr he))
      (fun _ => TranslationUnit.overlapsOther_false (Bool.eq_false_iff.2 hover)) h
  · have hw : acceptedWindow image = Window.empty := if_neg hvalid
    rw [hw]
    exact relationsOk_putWindow (fun hv => by simp [Window.empty] at hv) (fun hv => by simp [Window.empty] at hv) h

theorem acceptedNode_laws {s : State} {i : SlotIx} {image : List Byte} (hpass : s.nodeRefusal i image = none) :
    (acceptedNode image).ok
      ∧ (RelationsOk s.tu → RelationsOk { s.tu with nodes := put s.tu.nodes i (acceptedNode image) }) := by
  unfold State.nodeRefusal at hpass
  unfold acceptedNode
  split at hpass
  · next hzero =>
    rw [if_pos hzero]
    split at hpass
    · cases hpass
    next hfree =>
    refine ⟨nodeOk_unused, relationsOk_putUnused fun w hv hs => hfree ?_⟩
    exact (s.inUse_iff i).2 (.inl ⟨w, hv, hs⟩)
  · next hlive =>
    rw [if_neg hlive]
    split at hpass
    · cases hpass
    next hform =>
    split at hpass
    · cases hpass
    split at hpass
    · cases hpass
    next hdup =>
    exact ⟨nodeOk_ofImage (by simpa using hform),
      relationsOk_putNew (by simp [nodeOfImage]) (TranslationUnit.otherHolds_false (Bool.eq_false_iff.2 hdup))⟩

/-! ### The quarantine count -/

theorem State.Keeps.setNode {i : SlotIx} {n : Node} {s : State} (hi : (look s.tu.nodes i).state ≠ .unused) (hn : n.state ≠ .unused)
    (hid : n.nodeId = (look s.tu.nodes i).nodeId) (hok : (look s.tu.nodes i).ok → n.ok) : s.Keeps (s.setNode i n) :=
  .onTu (fun h => nodesOk_put (hok (h i)) h) fun h _ => relationsOk_putUsed hi hn hid h

theorem State.Keeps.quarantine {i : SlotIx} {s : State} (hi : (look s.tu.nodes i).state ≠ .unused) :
    s.Keeps (s.quarantine i) := by
  have quiet : NodeState.quiet ≠ .unused := by decide
  have quieted : s.Keeps (s.setNode i { look s.tu.nodes i with state := .quiet }) := by
    refine .setNode hi quiet rfl fun h => ?_
    obtain ⟨-, -, -, -, -, -, -, hcount⟩ := (nodeOk_of_used hi).1 h
    exact nodeOk_recount hi quiet hcount h
  exact (quieted.trans (.onReports rfl)).trans (.offer ..)

theorem State.Keeps.nodeTimesOut (i : SlotIx) (s : State) : s.Keeps (s.nodeTimesOut i) := by
  unfold State.nodeTimesOut
  refine .ite (fun _ => .refl s) fun hi => ?_
  have counted : s.Keeps (s.setNode i (look s.tu.nodes i).timedOut) :=
    .setNode hi hi rfl fun h => nodeOk_recount hi hi (Nat.min_le_left _ _) h
  refine .ite (fun _ => counted.trans (.quarantine ?_)) fun _ => counted
  simp only [State.setNode, State.onTu_tu, look_put_same]
  exact hi

theorem State.Keeps.nodeSucceeds (i : SlotIx) (s : State) : s.Keeps (s.nodeSucceeds i) := by
  by_cases hi : (look s.tu.nodes i).state = .unused
  · unfold State.nodeSucceeds State.setNode
    have kept (hok : (look s.tu.nodes i).ok) :
        put s.tu.nodes i { look s.tu.nodes i with count := 0 } = s.tu.nodes := by
      have hu : look s.tu.nodes i = Node.unused := by simpa only [Node.ok, if_pos hi] using hok
      conv_rhs => rw [← put_look s.tu.nodes i]
      rw [hu]; rfl
    refine .onTu (fun h => ?_) fun h hn => ?_
    · rw [kept (h i)]
      exact h
    · rw [kept (hn i)]
      exact h
  · exact .setNode hi hi rfl fun h => nodeOk_recount hi hi (Nat.zero_le _) h

end Sys2Proof.Machine
end


section
/-! Changes of an exchange record that no law of XU sees: its read buffer, its retain flag, and the mark of log 30. -/

namespace Sys2Proof.Machine

/-- The records differ in the read buffer, the retain flag and the mark `leftUp` at most. -/
def Exchange.SameWork (e e' : Exchange) : Prop :=
  ∃ readBuffer retain leftUp, e' = { e with readBuffer := readBuffer, retain := retain, leftUp := leftUp }

namespace Exchange.SameWork

variable {e e' : Exchange}

theorem refl (e : Exchange) : e.SameWork e := ⟨_, _, _, rfl⟩
theorem state (h : e.SameWork e') : e'.state = e.state := by obtain ⟨_, _, _, rfl⟩ := h; rfl
theorem xno (h : e.SameWork e') : e'.xno = e.xno := by obtain ⟨_, _, _, rfl⟩ := h; rfl
theorem inWork (h : e.SameWork e') : e'.inWork = e.inWork := by obtain ⟨_, _, _, rfl⟩ := h; rfl
theorem hasUnissued (h : e.SameWork e') : e'.hasUnissued = e.hasUnissued := by obtain ⟨_, _, _, rfl⟩ := h; rfl
theorem outstanding (h : e.SameWork e') : e'.outstanding = e.outstanding := by obtain ⟨_, _, _, rfl⟩ := h; rfl
theorem ok (h : e.SameWork e') (hok : e.ok) : e'.ok := by obtain ⟨_, _, _, rfl⟩ := h; exact hok
theorem piecesIssued (h : e.SameWork e') : e'.piecesIssued = e.piecesIssued := by obtain ⟨_, _, _, rfl⟩ := h; rfl
theorem addr (h : e.SameWork e') : e'.addr = e.addr := by obtain ⟨_, _, _, rfl⟩ := h; rfl
theorem nextOffset (h : e.SameWork e') : e'.nextOffset = e.nextOffset := by obtain ⟨_, _, _, rfl⟩ := h; rfl
theorem view (h : e.SameWork e') (i : RecIx) : exchangeView i e' = exchangeView i e := by obtain ⟨_, _, _, rfl⟩ := h; rfl

end Exchange.SameWork

/-- Every record the same work, the answer ranks the same: every law stands. -/
theorem State.Keeps.relabel {s : State} {u : ExchangeUnit} (ha : u.answerOrder = s.xu.answerOrder)
    (h : ∀ i, (s.record i).SameWork (look u.records i)) : s.Keeps { s with xu := u } where
  xnos _ hx i j hij hi hj := by
    have hi' : (s.record i).state ≠ .free := (h i).state ▸ hi
    have hj' : (s.record j).state ≠ .free := (h j).state ▸ hj
    rw [(h i).xno, (h j).xno]
    exact hx i j hij hi' hj'
  order ho hr := by
    refine ⟨⟨ho.1, fun i => (ho.2 i).trans ?_⟩, ?_, fun i => ?_⟩
    · have now : ({ s with xu := u } : State).record i = look u.records i := rfl
      rw [now, (h i).inWork, (h i).hasUnissued]
    · exact ha ▸ hr.1
    · show i ∈ u.answerOrder ↔ (look u.records i).state = .answered
      rw [ha, (h i).state]
      exact hr.2 i
  records _ _ hok i := (h i).ok (hok i)
  outstanding _ _ hout i := (hout i).trans (by
    have now : ({ s with xu := u } : State).record i = look u.records i := rfl
    rw [now, (h i).inWork, (h i).outstanding])
  carving _ _ _ _ _ hc i := by
    show (look u.records i).piecesIssued ≤ 5 ∧ ((look u.records i).hasUnissued = true →
        (look u.records i).piecesIssued
            ≤ ((look u.records i).addr.toNat + (look u.records i).nextOffset) / 64 - (look u.records i).addr.toNat / 64
          ∧ ((look u.records i).piecesIssued ≠ 0 →
              ((look u.records i).addr.toNat + (look u.records i).nextOffset) % 64 = 0))
    rw [(h i).piecesIssued, (h i).hasUnissued, (h i).addr, (h i).nextOffset]
    exact hc i

theorem ExchangeUnit.void_sameWork (p : Exchange → Bool) (u : ExchangeUnit) (i : RecIx) :
    (look u.records i).SameWork (look (u.void p).records i) := by
  simp only [ExchangeUnit.void, look_mapIx]
  split
  · exact ⟨_, _, _, rfl⟩
  · exact .refl _

theorem ExchangeUnit.linkLeft_sameWork (u : ExchangeUnit) (i : RecIx) : (look u.records i).SameWork (look u.linkLeft.records i) := by
  simp only [ExchangeUnit.linkLeft, look_mapIx]
  split
  · exact ⟨_, _, _, rfl⟩
  · exact .refl _

namespace State.Keeps

variable {s t : State}

theorem void (p : Exchange → Bool) (s : State) : s.Keeps (s.onXu (·.void p)) := .relabel rfl (ExchangeUnit.void_sameWork p s.xu)

theorem writeAccepted (slot : SlotIx) (addr : FabricAddr) (length : Nat) (s : State) : s.Keeps (s.writeAccepted slot addr length) :=
  (State.Keeps.onRu (buffersOk_invalidate _)).trans (.void ..)

theorem windowAccepted (w : WinIx) (s : State) : s.Keeps (s.windowAccepted w) :=
  (State.Keeps.onRu (buffersOk_invalidate _)).trans (.void ..)

theorem nodeAccepted (n : SlotIx) (s : State) : s.Keeps (s.nodeAccepted n) :=
  (State.Keeps.onRu (buffersOk_invalidate _)).trans (.void ..)

theorem flushed (s : State) : s.Keeps s.flushed := (State.Keeps.buffersInvalidated s).trans (.void ..)

/-- A READ's payload lands in its owner's read buffer alone (R102). -/
theorem placePayload (t : TagIx) (payload : List Byte) (s : State) : s.Keeps (s.placePayload t payload) := by
  unfold State.placePayload
  simp only
  split
  · next i _ _ =>
    refine .relabel rfl fun j => ?_
    rw [look_put]
    split
    · next hj => subst hj; exact ⟨_, _, _, rfl⟩
    · exact .refl _
  · exact .refl s

theorem loadWindow {i : WinIx} {image : List Byte} (hpass : s.tu.windowRefusal i image = none) :
    s.Keeps (s.loadWindow i image) := by
  have loaded : s.Keeps (s.onTu fun u => { u with windows := put u.windows i (acceptedWindow image) }) :=
    .onTu (fun h => h) fun h _ => relationsOk_acceptedWindow hpass h
  exact loaded.trans (.windowAccepted ..)

theorem loadNode {i : SlotIx} {image : List Byte} (hpass : s.nodeRefusal i image = none) : s.Keeps (s.loadNode i image) := by
  obtain ⟨hok, hrel⟩ := acceptedNode_laws hpass
  have loaded : s.Keeps (s.setNode i (acceptedNode image)) := .onTu (nodesOk_put hok) fun h _ => hrel h
  exact loaded.trans (.nodeAccepted ..)

theorem loadWindows {n : Nat} {images : List (List Byte)} (h : State.loadWindows n images s = .ok t) : s.Keeps t := by
  induction images generalizing n s with
  | nil => cases h; exact .refl _
  | cons image rest ih =>
    rw [State.loadWindows] at h
    split at h
    · split at h
      · cases h
      · next hpass => exact (State.Keeps.loadWindow hpass).trans (ih h)
    · cases h; exact .refl _

theorem loadNodes {n : Nat} {images : List (List Byte)} (h : State.loadNodes n images s = .ok t) : s.Keeps t := by
  induction images generalizing n s with
  | nil => cases h; exact .refl _
  | cons image rest ih =>
    rw [State.loadNodes] at h
    split at h
    · split at h
      · cases h
      · next hpass => exact (State.Keeps.loadNode hpass).trans (ih h)
    · cases h; exact .refl _

/-- CLEAR_QUIET leaves a slot in use, with its node ID (R64). -/
theorem clearQuietSlot {arg : Byte} (h : s.clearQuietSlot arg = .ok t) : s.Keeps t := by
  unfold State.clearQuietSlot at h
  split at h
  · cases h
  · simp only at h
    split at h
    · cases h
    · next hi =>
      cases h
      exact .setNode hi (by decide : NodeState.live ≠ .unused) rfl fun hok =>
        nodeOk_recount hi (by decide) (Nat.zero_le _) hok

end State.Keeps

end Sys2Proof.Machine
end


section
/-! TP's laws (R149 to R155): what each change of the link state makes of the timers, the credits and the negotiated values. -/

namespace Sys2Proof.Machine

/-- No timer of NEGOTIATE, SETTLE or UP runs. -/
def TrunkPort.Stopped (t : TrunkPort) : Prop :=
  t.attemptTimer = none ∧ t.capInterval = none ∧ t.settle = none ∧ t.linkLoss = none

/-- The outgoing credits are 0. -/
def TrunkPort.NoCredits (t : TrunkPort) : Prop :=
  t.requestLimit = 0 ∧ t.requestConsumed = 0 ∧ t.pushLimit = 0 ∧ t.pushConsumed = 0

theorem TrunkPort.zeroCredits_noCredits (t : TrunkPort) : t.zeroCredits.NoCredits := ⟨rfl, rfl, rfl, rfl⟩

namespace State.Keeps

variable {s : State}

/-- A change of XU's marks, TP, IA's claims and the reports. -/
theorem linkChange {xu : ExchangeUnit} {tp : TrunkPort} {ia : IssueArbiter} {reports : Reports}
    (hxu : xu = s.xu ∨ xu = s.xu.linkLeft) (hia : ia.orderList = s.ia.orderList) (hr : reports.pieceResults = s.reports.pieceResults)
    (ht : LinkTimersOk s → LinkTimersOk { s with tp := tp }) (hc : CreditsOk s → CreditsOk { s with tp := tp })
    (hn : NegotiationOk s → NegotiationOk { s with tp := tp }) :
    s.Keeps { s with xu := xu, tp := tp, ia := ia, reports := reports } := by
  have marked : s.Keeps { s with xu := xu } := by
    rcases hxu with rfl | rfl
    · exact .refl s
    · exact .relabel rfl (ExchangeUnit.linkLeft_sameWork s.xu)
  have claimed := marked.trans (.onIa (f := fun _ => ia) hia)
  have reported := claimed.trans (.onReports (f := fun _ => reports) hr)
  have linked : State.Keeps { s with xu := xu, ia := ia, reports := reports } { s with xu := xu, tp := tp, ia := ia, reports := reports } :=
    { timers := ht, credits := hc, negotiation := hn }
  exact reported.trans linked

/-- A change of TP alone. -/
theorem onTp {f : TrunkPort → TrunkPort} (ht : LinkTimersOk s → LinkTimersOk (s.onTp f)) (hc : CreditsOk s → CreditsOk (s.onTp f))
    (hn : NegotiationOk s → NegotiationOk (s.onTp f)) : s.Keeps (s.onTp f) := { timers := ht, credits := hc, negotiation := hn }

end State.Keeps

/-! ### Leaving a link state -/

@[simp] theorem Reports.offering_pieceResults (s : State) (c : NoticeCode) (arg : Nat) (r : Reports) :
    (r.offering s c arg).pieceResults = r.pieceResults := by
  unfold Reports.offering
  split <;> rfl

theorem State.leaveNegotiate_eq (s : State) : s.leaveNegotiate = { s with
    tp := { s.tp with attemptTimer := none, capInterval := none }
    ia := { s.ia with capClaim := false, capackClaim := false } } := rfl

theorem State.leaveSettle_eq (s : State) : s.leaveSettle = { s with
    tp := { s.tp with
      settle := none, linkLoss := none
      requestLimit := 0, requestConsumed := 0, pushLimit := 0, pushConsumed := 0, grantedRequest := 0, grantedPush := 0 }
    ia := { s.ia with idleTimer := none } } := rfl

theorem State.leaveUp_eq (reason : DownReason) (s : State) : s.leaveUp reason = { s with
    xu := s.xu.linkLeft
    tp := { s.tp with
      linkLoss := none, slots := Vector.replicate 2 none, unserved := []
      requestLimit := 0, requestConsumed := 0, pushLimit := 0, pushConsumed := 0, grantedRequest := 0, grantedPush := 0 }
    ia := { s.ia with
      cplClaims := s.ia.cplClaims.map fun c => { c with held := false }
      transmitter := s.ia.transmitter.mapEffect PacketEffect.released }
    reports := Reports.offering s .linkDown reason.code (s.reports.leftUp reason) } := by
  rw [State.leaveUp, State.offer_eq]
  rfl

section
variable (reason : DownReason) (s : State)

/-- What leaving the present link state brings, by the state. -/
theorem State.leaveLink_cases :
    s.tp.link = .up ∧ s.leaveLink reason = s.leaveUp reason
      ∨ s.tp.link = .settle ∧ s.leaveLink reason = s.leaveSettle
      ∨ s.tp.link = .negotiate ∧ s.leaveLink reason = s.leaveNegotiate
      ∨ (s.tp.link ≠ .up ∧ s.tp.link ≠ .settle ∧ s.tp.link ≠ .negotiate) ∧ s.leaveLink reason = s := by
  unfold State.leaveLink
  cases s.tp.link <;> simp

theorem State.leaveLink_stopped (h : LinkTimersOk s) : (s.leaveLink reason).tp.Stopped := by
  obtain ⟨-, hattempt, hcap, hsettle, hloss⟩ := h
  obtain ⟨hl, he⟩ | ⟨hl, he⟩ | ⟨hl, he⟩ | ⟨hl, he⟩ := State.leaveLink_cases reason s <;>
    simp_all [TrunkPort.Stopped, State.leaveUp_eq, State.leaveSettle_eq, State.leaveNegotiate_eq]

theorem State.leaveLink_noCredits (h : CreditsOk s) : (s.leaveLink reason).tp.NoCredits := by
  obtain ⟨hl, he⟩ | ⟨hl, he⟩ | ⟨hl, he⟩ | ⟨hl, he⟩ := State.leaveLink_cases reason s <;>
    simp_all [TrunkPort.NoCredits, CreditsOk, State.leaveUp_eq, State.leaveSettle_eq, State.leaveNegotiate_eq]

theorem State.leaveLink_orderList : (s.leaveLink reason).ia.orderList = s.ia.orderList := by
  obtain ⟨-, he⟩ | ⟨-, he⟩ | ⟨-, he⟩ | ⟨-, he⟩ := State.leaveLink_cases reason s <;>
    rw [he] <;> simp [State.leaveUp_eq, State.leaveSettle_eq, State.leaveNegotiate_eq]

theorem State.leaveLink_pieceResults : (s.leaveLink reason).reports.pieceResults = s.reports.pieceResults := by
  obtain ⟨-, he⟩ | ⟨-, he⟩ | ⟨-, he⟩ | ⟨-, he⟩ := State.leaveLink_cases reason s <;>
    rw [he] <;> simp [State.leaveUp_eq, State.leaveSettle_eq, State.leaveNegotiate_eq, Reports.leftUp]

theorem State.leaveLink_xu : (s.leaveLink reason).xu = s.xu ∨ (s.leaveLink reason).xu = s.xu.linkLeft := by
  obtain ⟨-, he⟩ | ⟨-, he⟩ | ⟨-, he⟩ | ⟨-, he⟩ := State.leaveLink_cases reason s <;>
    rw [he] <;> simp [State.leaveUp_eq, State.leaveSettle_eq, State.leaveNegotiate_eq]

/-- Leaving a link state leaves the pins, the accepted far CAP and the segment hold timer. -/
theorem State.leaveLink_kept : (s.leaveLink reason).refok = s.refok ∧ (s.leaveLink reason).resetn = s.resetn
    ∧ (s.leaveLink reason).tp.farCap = s.tp.farCap := by
  obtain ⟨-, he⟩ | ⟨-, he⟩ | ⟨-, he⟩ | ⟨-, he⟩ := State.leaveLink_cases reason s <;>
    rw [he] <;> simp [State.leaveUp_eq, State.leaveSettle_eq, State.leaveNegotiate_eq]

end

/-- SEGRESET's effect (R149, R165, R177): what leaving brings, and TP in ISOLATED. -/
theorem State.segmentReset_eq (s : State) : s.segmentReset = { s with
    xu := (s.leaveLink .segreset).xu
    tp := { (s.leaveLink .segreset).tp with
      link := .isolated, requestLimit := 0, requestConsumed := 0, pushLimit := 0, pushConsumed := 0, grantedRequest := 0
      grantedPush := 0, slots := Vector.replicate 2 none, unserved := []
      segmentHold := some (Config.ms s.mu.settings.segmentHold)
      attemptTimer := none, capInterval := none, settle := none, linkLoss := none }
    ia := (s.leaveLink .segreset).ia
    reports := (s.leaveLink .segreset).reports } := by
  unfold State.segmentReset State.onTp TrunkPort.zeroCredits
  rw [State.leaveLink_frame]

/-! ### Entry to AWAIT_REF and NEGOTIATE (R150, R151) -/

theorem State.enterNegotiate_eq (s : State) : s.enterNegotiate = { s with
    tp := { s.tp with
      link := .negotiate, attempt := 1, farCap := none, acknowledged := false, farCapack := false
      attemptTimer := some 1000, capInterval := some 100 }
    ia := { s.ia with
      capackClaim := false, capClaim := true, transmitter := s.ia.transmitter.mapEffect PacketEffect.stale } } := rfl

theorem State.enterAwaitRef_low {s : State} (h : s.refok = false) :
    s.enterAwaitRef = { s with tp := { s.tp with link := .awaitRef, segmentHold := none } } := by
  simp [State.enterAwaitRef, h, State.onTp]

theorem State.enterAwaitRef_high {s : State} (h : s.refok = true) :
    s.enterAwaitRef = State.enterNegotiate { s with tp := { s.tp with link := .awaitRef, segmentHold := none } } := by
  simp [State.enterAwaitRef, h, State.onTp]

/-- With every timer of the link stopped, the entry to AWAIT_REF meets the law of the timers, with REFOK high as well. -/
theorem State.enterAwaitRef_timers {s : State} (h : s.tp.Stopped) : LinkTimersOk s.enterAwaitRef := by
  obtain ⟨hattempt, hcap, hsettle, hloss⟩ := h
  cases href : s.refok with
  | false =>
    rw [State.enterAwaitRef_low href]
    simp [LinkTimersOk, hattempt, hcap, hsettle, hloss]
  | true =>
    rw [State.enterAwaitRef_high href, State.enterNegotiate_eq]
    simp [LinkTimersOk, hsettle, hloss]

theorem State.enterAwaitRef_credits {s : State} (h : s.tp.NoCredits) : CreditsOk s.enterAwaitRef := by
  cases href : s.refok with
  | false => rw [State.enterAwaitRef_low href]; exact fun _ _ => h
  | true => rw [State.enterAwaitRef_high href, State.enterNegotiate_eq]; exact fun _ _ => h

theorem State.enterAwaitRef_negotiation {s : State} (h : ∀ f ∈ s.tp.farCap, capAcceptable f = true) : NegotiationOk s.enterAwaitRef := by
  cases href : s.refok with
  | false =>
    rw [State.enterAwaitRef_low href]
    exact ⟨h, by simp, by simp, by simp [href]⟩
  | true =>
    rw [State.enterAwaitRef_high href, State.enterNegotiate_eq]
    exact ⟨by simp, by simp, by simp, by simp⟩

theorem State.enterAwaitRef_orderList (s : State) : s.enterAwaitRef.ia.orderList = s.ia.orderList := by
  cases href : s.refok with
  | false => rw [State.enterAwaitRef_low href]
  | true => rw [State.enterAwaitRef_high href]; rfl

theorem State.enterSettle_eq (f : CapFields) (s : State) : s.enterSettle f = { s with
    tp := { s.tp with
      link := .settle, attemptTimer := none, capInterval := none
      rateClass := if f.rateClass.toNat ≤ 4 then f.rateClass else 4
      pieceMax := if f.pieceMax.toNat ≤ 512 then f.pieceMax else 512
      nodeId := f.nodeId.setWidth 12
      requestLimit := f.requestLimit, pushLimit := f.pushLimit, requestConsumed := 0, pushConsumed := 0
      grantedRequest := 2, grantedPush := 0, slots := Vector.replicate 2 none, unserved := []
      settle := some 200, linkLoss := some (Config.ms s.mu.settings.linkLoss) }
    ia := { s.ia with
      capClaim := false, capackClaim := false
      idleTimer := if s.ia.transmitter = .free then some 250 else s.ia.idleTimer } } := by
  by_cases h : s.ia.transmitter = .free <;>
    simp only [State.enterSettle, State.startIdle, State.leaveNegotiate, State.onTp, State.onIa, h, if_true, if_false, true_or] <;> rfl

/-! ### The changes of the link state -/

namespace State.Keeps

variable {s : State}

/-- The link falls to AWAIT_REF, from any state (R150, R155, R157). -/
theorem fallToAwaitRef (reason : DownReason) (s : State) : s.Keeps (s.leaveLink reason).enterAwaitRef := by
  obtain ⟨hrefok, hresetn, hfar⟩ := State.leaveLink_kept reason s
  have frame : (s.leaveLink reason).enterAwaitRef = { s with
      xu := (s.leaveLink reason).xu, tp := (s.leaveLink reason).enterAwaitRef.tp, ia := (s.leaveLink reason).enterAwaitRef.ia
      reports := (s.leaveLink reason).reports } := by
    rw [State.enterAwaitRef_frame, State.leaveLink_frame]
  have timers (h : LinkTimersOk s) := State.enterAwaitRef_timers (State.leaveLink_stopped reason s h)
  have credits (h : CreditsOk s) := State.enterAwaitRef_credits (State.leaveLink_noCredits reason s h)
  have negotiation (h : NegotiationOk s) := State.enterAwaitRef_negotiation (s := s.leaveLink reason) (hfar ▸ h.1)
  rw [frame] at timers credits negotiation ⊢
  exact .linkChange (State.leaveLink_xu reason s)
    ((State.enterAwaitRef_orderList _).trans (State.leaveLink_orderList reason s)) (State.leaveLink_pieceResults reason s)
    timers credits negotiation

/-- The segment hold timer expires in ISOLATED: the same fall, with nothing to leave (R149). -/
theorem leaveIsolated (h : s.tp.link = .isolated) : s.Keeps s.enterAwaitRef := by
  have still : s.leaveLink .loss = s := by simp [State.leaveLink, h]
  simpa only [still] using fallToAwaitRef .loss s

theorem segmentReset (s : State) : s.Keeps s.segmentReset := by
  obtain ⟨hrefok, hresetn, hfar⟩ := State.leaveLink_kept .segreset s
  rw [State.segmentReset_eq]
  refine .linkChange (State.leaveLink_xu .segreset s) (State.leaveLink_orderList .segreset s)
    (State.leaveLink_pieceResults .segreset s) (fun _ => ?_) (fun _ _ _ => ⟨rfl, rfl, rfl, rfl⟩) (fun h => ?_)
  · simp [LinkTimersOk]
  · exact ⟨fun f hf => h.1 f (hfar ▸ hf), by simp, by simp, by simp⟩

/-- An attempt of NEGOTIATE starts, its number within 1..8 (R151, R154). -/
theorem startAttempt {n : Nat} (hl : s.tp.link = .negotiate) (h1 : 1 ≤ n) (h8 : n ≤ 8) : s.Keeps (s.startAttempt n) := by
  refine .linkChange (.inl rfl) rfl rfl (fun h => ?_) (fun h => h) (fun h => ⟨by simp, fun _ => ⟨h1, h8⟩, h.2.2⟩)
  obtain ⟨hhold, -, -, hsettle, hloss⟩ := h
  exact ⟨hhold, by simp [hl], by simp [hl], hsettle, hloss⟩

theorem enterFailed (hl : s.tp.link = .negotiate) : s.Keeps s.enterFailed := by
  have reported := State.Keeps.offer .linkFailed 0 (s.leaveNegotiate.onTp fun t => { t with link := .failed })
  have failed : s.Keeps (s.leaveNegotiate.onTp fun t => { t with link := .failed }) := by
    refine .linkChange (.inl rfl) rfl rfl (fun h => ?_) (fun h _ _ => h (by simp [hl]) (by simp [hl])) (fun h => ⟨h.1, by simp, by simp, by simp⟩)
    obtain ⟨hhold, -, -, hsettle, hloss⟩ := h
    simp [hl] at hhold hsettle hloss
    simp [LinkTimersOk, State.leaveNegotiate_eq, hhold, hsettle, hloss]
  exact (failed.trans reported).trans (.onReports rfl)

theorem endAttempt (hl : s.tp.link = .negotiate) : s.Keeps s.endAttempt :=
  .ite (fun h => .startAttempt hl (by omega) (by omega)) fun _ => .enterFailed hl

/-- The rate class, the piece maximum and the node ID of an acceptable far CAP are in range (R152, R153). -/
theorem enterSettle {f : CapFields} (hl : s.tp.link = .negotiate) (hf : NegotiationOk s → capAcceptable f = true) : s.Keeps (s.enterSettle f) := by
  rw [State.enterSettle_eq]
  refine .linkChange (.inl rfl) rfl rfl (fun h => ?_) (fun _ hs => absurd rfl hs) (fun h => ?_)
  · obtain ⟨hhold, -, -, -, -⟩ := h
    simp [hl] at hhold
    simp [LinkTimersOk, hhold]
  · replace hf := hf h
    simp only [capAcceptable, Bool.and_eq_true, Bool.or_eq_true, decide_eq_true_eq, beq_iff_eq] at hf
    obtain ⟨⟨⟨⟨hrate, hrate'⟩, hsize⟩, hid⟩, hid'⟩ := hf
    have hsize' : f.pieceMax.toNat ≤ 512 := by rcases hsize with ((h | h) | h) | h <;> simp [h]
    simp only [hrate', hsize', if_true]
    refine ⟨h.1, by simp, fun _ => ⟨hrate, hrate', ?_, ?_, ?_⟩, by simp⟩
    · simpa only [or_assoc] using hsize
    · simp only [BitVec.toNat_setWidth]; omega
    · simp only [BitVec.toNat_setWidth]; omega

theorem enterUp (hl : s.tp.link = .settle) : s.Keeps (s.onTp fun t => { t with link := .up, settle := none }) := by
  refine .onTp (fun h => ?_) (fun _ _ hu => absurd rfl hu) (fun h => ?_)
  · obtain ⟨hhold, hattempt, hcap, -, hloss⟩ := h
    simp [LinkTimersOk, hl, State.onTp] at hhold hattempt hcap hloss ⊢
    exact ⟨hhold, hattempt, hcap, hloss⟩
  · obtain ⟨hfar, -, hvalues, -⟩ := h
    exact ⟨hfar, by simp, fun _ => hvalues (.inl hl), by simp⟩

/-- A valid packet restarts the link loss timer where it runs (R156). -/
theorem lossRestarts (s : State) : s.Keeps s.lossRestarts := by
  refine .ite (fun hl => ?_) fun _ => .refl s
  refine .onTp (fun h => ?_) (fun h => h) (fun h => h)
  obtain ⟨hhold, hattempt, hcap, hsettle, -⟩ := h
  exact ⟨hhold, hattempt, hcap, hsettle, iff_of_true (by simp [State.onTp, State.lossInterval]) hl⟩

end State.Keeps

end Sys2Proof.Machine
end


section
/-! XU's laws (R18 to R40, R80) under a change of one exchange record, with its member of the Order List, its tags and its piece
results: what each law asks of the change, and the operations that are such changes. -/

namespace Sys2Proof.Machine

/-- The law of `CarvingOk` for one record. -/
def Exchange.carvingOk (e : Exchange) : Prop :=
  e.piecesIssued ≤ 5
    ∧ (e.hasUnissued = true →
        e.piecesIssued ≤ (e.addr.toNat + e.nextOffset) / 64 - e.addr.toNat / 64
          ∧ (e.piecesIssued ≠ 0 → (e.addr.toNat + e.nextOffset) % 64 = 0))

theorem carvingOk_iff {u : ExchangeUnit} : CarvingOk u ↔ ∀ i, (look u.records i).carvingOk := Iff.rfl

/-- Carving asks no more of a record with the same pieces that has no more of them to issue. -/
theorem Exchange.carvingOk_of_same {e e' : Exchange} (ha : e'.addr = e.addr) (hn : e'.nextOffset = e.nextOffset)
    (hp : e'.piecesIssued = e.piecesIssued) (hu : e'.hasUnissued = true → e.hasUnissued = true) (h : e.carvingOk) : e'.carvingOk := by
  unfold Exchange.carvingOk
  rw [ha, hn, hp]
  exact ⟨h.1, fun hu' => h.2 (hu hu')⟩

/-! ### The Order List without a member -/

theorem count_push_filter (i : RecIx) (l : List Member) : (l.filter (· != .exchange i)).count .push = l.count .push :=
  List.count_filter (by simp)

theorem count_exchange_filter_self (i : RecIx) (l : List Member) : (l.filter (· != .exchange i)).count (.exchange i) = 0 :=
  List.count_eq_zero.2 (by simp)

theorem count_exchange_filter_other {i j : RecIx} (h : j ≠ i) (l : List Member) :
    (l.filter (· != .exchange i)).count (.exchange j) = l.count (.exchange j) :=
  List.count_filter (by simpa using h)

/-! ### Xnos -/

/-- A record that keeps its xno, or is freed, keeps the xnos unique. -/
theorem xnosOk_put {u : ExchangeUnit} {i : RecIx} {e : Exchange} {order : List RecIx}
    (he : e.state ≠ .free → (look u.records i).state ≠ .free ∧ e.xno = (look u.records i).xno) (h : XnosOk u) :
    XnosOk ⟨put u.records i e, order⟩ := by
  have kept : ∀ j, (look (put u.records i e) j).state ≠ .free →
      (look u.records j).state ≠ .free ∧ (look (put u.records i e) j).xno = (look u.records j).xno := by
    intro j hj
    rw [look_put] at hj ⊢
    split at hj
    · next hij => subst hij; rw [if_pos rfl]; exact he hj
    · next hij => rw [if_neg hij]; exact ⟨hj, rfl⟩
  intro j k hjk hj hk
  obtain ⟨hj', ej⟩ := kept j hj
  obtain ⟨hk', ek⟩ := kept k hk
  show (look (put u.records i e) j).xno ≠ (look (put u.records i e) k).xno
  rw [ej, ek]
  exact h j k hjk hj' hk'

/-- A record that takes an xno which no other record holds keeps the xnos unique (R20). -/
theorem xnosOk_putNew {u : ExchangeUnit} {i : RecIx} {e : Exchange} {order : List RecIx}
    (hnew : ∀ j, j ≠ i → (look u.records j).state ≠ .free → (look u.records j).xno ≠ e.xno) (h : XnosOk u) :
    XnosOk ⟨put u.records i e, order⟩ := by
  intro j k hjk hj hk
  simp only [look_put] at hj hk ⊢
  by_cases hij : i = j <;> by_cases hik : i = k
  · exact absurd (hij.symm.trans hik) hjk
  · rw [if_pos hij, if_neg hik]
    rw [if_neg hik] at hk
    exact (hnew k (Ne.symm hik) hk).symm
  · rw [if_neg hij, if_pos hik]
    rw [if_neg hij] at hj
    exact hnew j (Ne.symm hij) hj
  · rw [if_neg hij, if_neg hik]
    rw [if_neg hij] at hj
    rw [if_neg hik] at hk
    exact h j k hjk hj hk

/-! ### One record changed -/

/-- What the laws but those of the xnos and of the record's own fields ask of a change of record `i` to `e`, with the Order List, the tags and the piece
results it leaves. -/
structure State.RecordChange (s : State) (i : RecIx) (e : Exchange) (order : List Member) (cu : CompletionUnit)
    (results : List (RecIx × PieceResult)) : Prop where
  answered : e.state = .answered ↔ (s.record i).state = .answered
  orderPush : order.count .push = s.ia.orderList.count .push
  orderOther : ∀ j, j ≠ i → order.count (.exchange j) = s.ia.orderList.count (.exchange j)
  orderSelf : OrderListOk s → order.count (.exchange i) = if e.inWork ∧ e.hasUnissued then 1 else 0
  ownedOther : ∀ j, j ≠ i → cu.ownedBy j = s.cu.ownedBy j
  resultsOther : ∀ j, j ≠ i → results.countP (fun r => r.1 == j) = s.reports.pieceResults.countP fun r => r.1 == j
  outstanding : OrderListOk s →
    s.cu.ownedBy i + s.reports.pieceResults.countP (fun r => r.1 == i) = (if (s.record i).inWork then (s.record i).outstanding else 0) →
    cu.ownedBy i + results.countP (fun r => r.1 == i) = if e.inWork then e.outstanding else 0
  tags : TagsOk s.cu → TagsOk cu
  busyCounts : NodesOk s.tu → BusyCountsOk s → ∀ n, cu.busyCount n ≤ 8
  carving : OrderListOk s → NodesOk s.tu → NegotiationOk s → (s.record i).ok → (s.record i).carvingOk → e.carvingOk

theorem State.Keeps.changeRecord {s : State} {i : RecIx} {e : Exchange} {order : List Member} {cu : CompletionUnit}
    {results : List (RecIx × PieceResult)} {x : Prop} (h : s.RecordChange i e order cu results)
    (hx : x → XnosOk s.xu → XnosOk { s.xu with records := put s.xu.records i e })
    (hok : OrderListOk s → AnswerRanksOk s.xu → (s.record i).ok → e.ok) :
    s.Keeps (x := x) { s with
      xu := { s.xu with records := put s.xu.records i e }
      ia := { s.ia with orderList := order }
      cu := cu
      reports := { s.reports with pieceResults := results } } where
  xnos := hx
  order ho ha := by
    refine ⟨⟨h.orderPush.trans ho.1, fun j => ?_⟩, ha.1, fun j => ?_⟩
    · by_cases hj : j = i
      · subst hj
        simpa only [State.record, look_put_same] using h.orderSelf ho
      · show order.count (.exchange j) = if (look (put s.xu.records i e) j).inWork ∧ (look (put s.xu.records i e) j).hasUnissued then 1 else 0
        rw [look_put_other _ _ (Ne.symm hj)]
        exact (h.orderOther j hj).trans (ho.2 j)
    · refine (ha.2 j).trans ?_
      by_cases hj : j = i
      · subst hj
        simpa only [State.record, look_put_same] using h.answered.symm
      · simp only [look_put_other _ _ (Ne.symm hj)]
  records ho ha hrecs j := by
    by_cases hj : j = i
    · subst hj
      simpa only [look_put_same] using hok ho ha (hrecs j)
    · simpa only [look_put_other _ _ (Ne.symm hj)] using hrecs j
  outstanding ho _ hout j := by
    by_cases hj : j = i
    · subst hj
      simpa only [State.record, look_put_same] using h.outstanding ho (hout j)
    · simp only [State.record, look_put_other _ _ (Ne.symm hj), h.ownedOther j hj, h.resultsOther j hj]
      exact hout j
  tags := h.tags
  busyCounts := h.busyCounts
  carving ho _ hrecs hn hneg hc := by
    refine carvingOk_iff.2 fun j => ?_
    by_cases hj : j = i
    · subst hj
      simpa only [look_put_same] using h.carving ho hn hneg (hrecs j) (hc j)
    · simpa only [look_put_other _ _ (Ne.symm hj)] using carvingOk_iff.1 hc j

end Sys2Proof.Machine
end


section
/-! XU's operations keep the laws: a record freed, delivered, examined for READY, ended by a fault, and a piece result taken. -/

namespace Sys2Proof.Machine

/-! ### A record that is not in work -/

/-- A record out of work takes other fields out of work: the Order List and the tags do not see it. -/
theorem State.Keeps.changeRank {s : State} {i : RecIx} {e : Exchange} {order : List RecIx}
    (hold : AnswerRanksOk s.xu → (s.record i).inWork = false) (hnew : e.inWork = false)
    (hx : e.state ≠ .free → (s.record i).state ≠ .free ∧ e.xno = (s.record i).xno)
    (hrank : AnswerRanksOk s.xu → AnswerRanksOk ⟨put s.xu.records i e, order⟩) (hok : (s.record i).ok → e.ok)
    (hcarve : (s.record i).carvingOk → e.carvingOk) : s.Keeps { s with xu := ⟨put s.xu.records i e, order⟩ } where
  xnos _ := xnosOk_put hx
  order ho ha := by
    refine ⟨⟨ho.1, fun j => (ho.2 j).trans ?_⟩, hrank ha⟩
    show _ = if (look (put s.xu.records i e) j).inWork ∧ (look (put s.xu.records i e) j).hasUnissued then 1 else 0
    by_cases hj : j = i
    · subst hj
      rw [look_put_same, hold ha, hnew, if_neg (by simp), if_neg (by simp)]
    · rw [look_put_other _ _ (Ne.symm hj)]
      rfl
  records _ _ hrecs j := by
    show (look (put s.xu.records i e) j).ok
    by_cases hj : j = i
    · subst hj; rw [look_put_same]; exact hok (hrecs j)
    · rw [look_put_other _ _ (Ne.symm hj)]; exact hrecs j
  outstanding _ ha hout j := by
    refine (hout j).trans ?_
    show _ = if (look (put s.xu.records i e) j).inWork then (look (put s.xu.records i e) j).outstanding else 0
    by_cases hj : j = i
    · subst hj
      rw [look_put_same, hold ha, hnew]
      rfl
    · rw [look_put_other _ _ (Ne.symm hj)]
      rfl
  carving _ _ _ _ _ hc := by
    refine carvingOk_iff.2 fun j => ?_
    show (look (put s.xu.records i e) j).carvingOk
    by_cases hj : j = i
    · subst hj; rw [look_put_same]; exact hcarve (carvingOk_iff.1 hc j)
    · rw [look_put_other _ _ (Ne.symm hj)]; exact carvingOk_iff.1 hc j

theorem Exchange.inWork_iff (e : Exchange) : e.inWork = true ↔ e.state = .queued ∨ e.state = .active := by
  simp [Exchange.inWork]

theorem Exchange.inWork_false (e : Exchange) : e.inWork = false ↔ e.state ≠ .queued ∧ e.state ≠ .active := by
  simp [Exchange.inWork]

theorem Exchange.free_ok : Exchange.free.ok := by simp [Exchange.ok, Exchange.free]

theorem Exchange.free_carvingOk : Exchange.free.carvingOk := by simp [Exchange.carvingOk, Exchange.free, Exchange.hasUnissued]

/-- A record freed goes from the answer ranks, the others close up (R28). -/
theorem answerRanksOk_free {u : ExchangeUnit} (i : RecIx) (h : AnswerRanksOk u) :
    AnswerRanksOk ⟨put u.records i Exchange.free, u.answerOrder.filter (· != i)⟩ := by
  refine ⟨h.1.filter _, fun j => ?_⟩
  by_cases hj : i = j
  · subst hj; simp [Exchange.free]
  · simp [look_put_other _ _ hj, h.2 j, Ne.symm hj]

/-- A record delivered takes the newest rank (R28). -/
theorem answerRanksOk_newest {u : ExchangeUnit} {i : RecIx} {e : Exchange} (he : e.state = .answered) (h : AnswerRanksOk u) :
    AnswerRanksOk ⟨put u.records i e, u.answerOrder.filter (· != i) ++ [i]⟩ := by
  refine ⟨List.nodup_append'.2 ⟨h.1.filter _, List.nodup_singleton i, by simp [List.disjoint_singleton]⟩, fun j => ?_⟩
  by_cases hj : i = j
  · subst hj; simp [he]
  · simp [look_put_other _ _ hj, h.2 j, Ne.symm hj]

/-- A record that is ANSWERED or not as before keeps the ranks. -/
theorem answerRanksOk_put {u : ExchangeUnit} {i : RecIx} {e : Exchange} (he : e.state = .answered ↔ (look u.records i).state = .answered)
    (h : AnswerRanksOk u) : AnswerRanksOk { u with records := put u.records i e } := by
  refine ⟨h.1, fun j => (h.2 j).trans ?_⟩
  by_cases hj : i = j
  · subst hj; simp [he]
  · simp [look_put_other _ _ hj]

namespace State.Keeps

variable {s : State} {i : RecIx}

theorem freeRecord (h : AnswerRanksOk s.xu → (s.record i).inWork = false) : s.Keeps (s.freeRecord i) :=
  .changeRank h rfl (fun hf => absurd rfl hf) (answerRanksOk_free i) (fun _ => Exchange.free_ok) fun _ => Exchange.free_carvingOk

theorem deliver (h : (s.record i).state = .ready) : s.Keeps (s.deliver i) := by
  refine .changeRank (fun _ => by simp [Exchange.inWork, h]) rfl (fun _ => ⟨by simp [h], rfl⟩) (answerRanksOk_newest rfl) (fun hok => ?_)
    (Exchange.carvingOk_of_same rfl rfl rfl id)
  obtain ⟨hnext, hissue, hreq, -, -, hdone, -⟩ := hok
  exact ⟨hnext, hissue, hreq, by simp [State.holdInterval], by simp, fun _ => hdone (.inl h), by simp⟩

theorem replayAnswered (h : (s.record i).state = .answered) : s.Keeps (s.replayAnswered i) := by
  have out : (s.record i).inWork = false := by simp [Exchange.inWork, h]
  refine .changeRank (fun _ => out) out (fun _ => ⟨by simp [h], rfl⟩) (answerRanksOk_put Iff.rfl) (fun hok => ?_)
    (Exchange.carvingOk_of_same rfl rfl rfl id)
  obtain ⟨hnext, hissue, hreq, -, hqueued, hdone, hactive⟩ := hok
  exact ⟨hnext, hissue, hreq, by simp [State.holdInterval, h], hqueued, hdone, hactive⟩

end State.Keeps

/-! ### The examination for READY (R37) -/

/-- A record in work with nothing unissued and nothing outstanding is READY, a pending result OK (R37). -/
def Exchange.settled (hold : Timer) (e : Exchange) : Exchange :=
  if e.inWork ∧ e.outstanding = 0 ∧ e.hasUnissued = false then
    { e with state := .ready, result := if e.result = .pending then .ok else e.result, holdTimer := hold }
  else e

section
variable (hold : Timer) (e : Exchange)

theorem Exchange.settled_xno : (e.settled hold).xno = e.xno := by unfold Exchange.settled; split <;> rfl

theorem Exchange.settled_hasUnissued : (e.settled hold).hasUnissued = e.hasUnissued := by unfold Exchange.settled; split <;> rfl

theorem Exchange.settled_state_free : (e.settled hold).state = .free ↔ e.state = .free := by
  unfold Exchange.settled
  split
  · next h => rcases e.inWork_iff.1 h.1 with hs | hs <;> simp [hs]
  · exact Iff.rfl

theorem Exchange.settled_state_answered : (e.settled hold).state = .answered ↔ e.state = .answered := by
  unfold Exchange.settled
  split
  · next h => rcases e.inWork_iff.1 h.1 with hs | hs <;> simp [hs]
  · exact Iff.rfl

/-- What IA and CU see of a record in work is not changed: one that becomes READY had nothing left of either. -/
theorem Exchange.settled_waits : ((e.settled hold).inWork = true ∧ (e.settled hold).hasUnissued = true) ↔ (e.inWork = true ∧ e.hasUnissued = true) := by
  rw [Exchange.settled_hasUnissued]
  unfold Exchange.settled
  split
  · next h => simp [h.2.2]
  · exact Iff.rfl

theorem Exchange.settled_outstanding :
    (if (e.settled hold).inWork then (e.settled hold).outstanding else 0) = if e.inWork then e.outstanding else 0 := by
  unfold Exchange.settled
  split
  · next h => simp [Exchange.inWork, h.2.1]
  · rfl

theorem Exchange.settled_carvingOk : (e.settled hold).carvingOk ↔ e.carvingOk := by unfold Exchange.settled; split <;> exact Iff.rfl

end

theorem State.RecordChange.settled {s : State} {i : RecIx} {e : Exchange} {order : List Member} {cu : CompletionUnit}
    {results : List (RecIx × PieceResult)} (hold : Timer) (h : s.RecordChange i e order cu results) : s.RecordChange i (e.settled hold) order cu results where
  answered := (e.settled_state_answered hold).trans h.answered
  orderPush := h.orderPush
  orderOther := h.orderOther
  orderSelf ho := (h.orderSelf ho).trans (by simp only [Exchange.settled_waits])
  ownedOther := h.ownedOther
  resultsOther := h.resultsOther
  outstanding ho hout := (h.outstanding ho hout).trans (e.settled_outstanding hold).symm
  tags := h.tags
  busyCounts := h.busyCounts
  carving ho hn hneg hok hc := (e.settled_carvingOk hold).2 (h.carving ho hn hneg hok hc)

/-- What an examination leaves: the record settled, and RU, which may have taken a fill. -/
theorem State.examine_eq (i : RecIx) (s : State) : s.examine i = { s with
    xu := { s.xu with records := put s.xu.records i ((s.record i).settled s.holdInterval) }, ru := (s.examine i).ru } := by
  unfold State.examine State.enterReady Exchange.settled
  simp only
  split
  · rw [State.offerFill_frame]
    rfl
  · simp [State.record]

theorem State.examine_buffers (i : RecIx) {s : State} (h : BuffersOk s.ru) : BuffersOk (s.examine i).ru := by
  unfold State.examine State.enterReady
  simp only
  split
  · exact (State.Keeps.offerFill _ _).buffers h
  · exact h

/-- A change of a record that ends with its examination for READY. -/
theorem State.Keeps.examined {s : State} {i : RecIx} {e : Exchange} {order : List Member} {results : List (RecIx × PieceResult)}
    (h : s.RecordChange i e order s.cu results) (he : e.state ≠ .free → (s.record i).state ≠ .free ∧ e.xno = (s.record i).xno)
    (hok : OrderListOk s → AnswerRanksOk s.xu → (s.record i).ok → (e.settled s.holdInterval).ok) :
    s.Keeps (State.examine i { s with
      xu := { s.xu with records := put s.xu.records i e }
      ia := { s.ia with orderList := order }
      reports := { s.reports with pieceResults := results } }) := by
  have xnos : XnosOk s.xu → XnosOk { s.xu with records := put s.xu.records i (e.settled s.holdInterval) } :=
    xnosOk_put fun hf => by
      rw [Exchange.settled_xno]
      exact he fun hfree => hf ((e.settled_state_free _).2 hfree)
  have changed := State.Keeps.changeRecord (x := True) (h.settled s.holdInterval) (fun _ => xnos) hok
  have filled := fun h => State.examine_buffers i (s := { s with
      xu := { s.xu with records := put s.xu.records i e }
      ia := { s.ia with orderList := order }
      reports := { s.reports with pieceResults := results } }) h
  rw [State.examine_eq]
  simp only [State.record, State.holdInterval, look_put_same, put_put] at changed filled ⊢
  exact changed.trans (.onRu (f := fun _ => _) filled)

/-- A record whose fields agree with its state, but that it may be QUEUED with nothing left to do, agrees with its state once settled. -/
theorem Exchange.settled_ok {hold : Timer} {e : Exchange} (hhold : hold ≠ none)
    (hlen : e.nextOffset ≤ e.issueLength ∧ e.issueLength ≤ 256 ∧ e.requestedLength ≤ e.issueLength)
    (htimer : e.holdTimer ≠ none ↔ e.state = .ready ∨ e.state = .answered)
    (hqueued : e.state = .queued → e.outstanding = 0 ∧ e.hasUnissued = false
      ∨ e.nextOffset = 0 ∧ e.piecesIssued = 0 ∧ e.outstanding = 0 ∧ e.abandoned = false ∧ e.result = .pending)
    (hdone : e.state = .ready ∨ e.state = .answered → e.outstanding = 0 ∧ e.hasUnissued = false ∧ e.result ≠ .pending)
    (hactive : e.state = .active → e.result ≠ .ok) : (e.settled hold).ok := by
  obtain ⟨hnext, hissue, hreq⟩ := hlen
  unfold Exchange.settled
  split
  · next h =>
    refine ⟨hnext, hissue, hreq, by simpa using hhold, by simp, fun _ => ⟨h.2.1, h.2.2, ?_⟩, by simp⟩
    show (if e.result = .pending then ExchangeResult.ok else e.result) ≠ .pending
    split
    · simp
    · assumption
  · next h =>
    refine ⟨hnext, hissue, hreq, htimer, fun hq => ?_, hdone, hactive⟩
    rcases hqueued hq with hzero | hlaw
    · exact absurd ⟨e.inWork_iff.2 (.inl hq), hzero.1, hzero.2⟩ h
    · exact hlaw

theorem State.holdInterval_running (s : State) : s.holdInterval ≠ none := by simp [State.holdInterval]

/-! ### A fault recorded, the unissued pieces given up -/

theorem Exchange.withFault_result_ne_pending (code : FaultCode) (detail : BitVec 16) (e : Exchange) : (e.withFault code detail).result ≠ .pending := by
  unfold Exchange.withFault
  split
  · simp
  · assumption

/-- The first fault stands (R35): a fault recorded changes the result of a pending exchange alone. -/
theorem Exchange.withFault_eq (code : FaultCode) (detail : BitVec 16) (e : Exchange) :
    e.withFault code detail = { e with result := if e.result = .pending then .fault code detail else e.result } := by
  unfold Exchange.withFault
  split <;> rfl

theorem State.setRecord_eq (i : RecIx) (e : Exchange) (s : State) :
    s.setRecord i e = { s with xu := { s.xu with records := put s.xu.records i e } } := rfl

theorem State.dropMember_eq (i : RecIx) (s : State) :
    s.dropMember i = { s with ia := { s.ia with orderList := s.ia.orderList.filter (· != .exchange i) } } := rfl

theorem State.abandon_eq (i : RecIx) (s : State) : s.abandon i = { s with
    xu := { s.xu with records := put s.xu.records i { s.record i with abandoned := true } }
    ia := { s.ia with orderList := s.ia.orderList.filter (· != .exchange i) } } := rfl

/-- A fault recorded, the unissued pieces given up, and the examination (R38 to R40). -/
theorem State.finalise_eq (code : FaultCode) (detail : BitVec 16) (i : RecIx) (s : State) :
    s.finalise code detail i = State.examine i { s with
      xu := { s.xu with records := put s.xu.records i { (s.record i).withFault code detail with abandoned := true } }
      ia := { s.ia with orderList := s.ia.orderList.filter (· != .exchange i) } } := by
  rw [State.finalise, State.abandon_eq, State.record_setRecord_same]
  simp only [State.setRecord_eq, put_put]

/-- The changes of a record in work that end its unissued pieces: it leaves the Order List, its results as given. -/
theorem State.RecordChange.ended {s : State} {i : RecIx} {e : Exchange} {results : List (RecIx × PieceResult)}
    (hstate : e.state = (s.record i).state) (hdone : e.hasUnissued = false)
    (hcarve : e.addr = (s.record i).addr ∧ e.nextOffset = (s.record i).nextOffset ∧ e.piecesIssued = (s.record i).piecesIssued)
    (hother : ∀ j, j ≠ i → results.countP (fun r => r.1 == j) = s.reports.pieceResults.countP fun r => r.1 == j)
    (hout : s.cu.ownedBy i + s.reports.pieceResults.countP (fun r => r.1 == i)
        = (if (s.record i).inWork then (s.record i).outstanding else 0) →
      s.cu.ownedBy i + results.countP (fun r => r.1 == i) = if e.inWork then e.outstanding else 0) :
    s.RecordChange i e (s.ia.orderList.filter (· != .exchange i)) s.cu results where
  answered := by rw [hstate]
  orderPush := count_push_filter i _
  orderOther _ hj := count_exchange_filter_other hj _
  orderSelf _ := by rw [count_exchange_filter_self, hdone, if_neg (by simp)]
  ownedOther _ _ := rfl
  resultsOther := hother
  outstanding _ := hout
  tags h := h
  busyCounts _ h := h
  carving _ _ _ _ hc := Exchange.carvingOk_of_same hcarve.1 hcarve.2.1 hcarve.2.2 (by simp [hdone]) hc

theorem State.Keeps.finalise {s : State} {i : RecIx} (code : FaultCode) (detail : BitVec 16) (h : (s.record i).inWork = true) :
    s.Keeps (s.finalise code detail i) := by
  rw [State.finalise_eq]
  have change : s.RecordChange i { (s.record i).withFault code detail with abandoned := true }
      (s.ia.orderList.filter (· != .exchange i)) s.cu s.reports.pieceResults := by
    rw [Exchange.withFault_eq]
    exact .ended rfl (by simp [Exchange.hasUnissued]) ⟨rfl, rfl, rfl⟩ (fun _ _ => rfl) id
  rw [Exchange.withFault_eq] at change ⊢
  refine State.Keeps.examined change (fun hf => ⟨hf, rfl⟩) fun _ _ hok => ?_
  obtain ⟨hnext, hissue, hreq, htimer, hqueued, hdone, hactive⟩ := hok
  have notDone : ¬((s.record i).state = .ready ∨ (s.record i).state = .answered) := by
    rcases (s.record i).inWork_iff.1 h with hs | hs <;> simp [hs]
  refine Exchange.settled_ok s.holdInterval_running ⟨hnext, hissue, hreq⟩ htimer ?_ (fun hs => absurd hs notDone) ?_
  · exact fun hq => .inl ⟨(hqueued hq).2.2.1, by simp [Exchange.hasUnissued]⟩
  · intro ha
    show (if (s.record i).result = .pending then ExchangeResult.fault code detail else (s.record i).result) ≠ .ok
    split
    · simp
    · exact hactive ha

/-! ### A piece result taken (R34, R35) -/

/-- The record's oldest result taken out leaves one fewer for it, and those of the others. -/
theorem countP_resultTaken {l : List (RecIx × PieceResult)} {i : RecIx} (j : RecIx) (h : (l.find? (·.1 == i)).isSome) :
    (l.eraseP (·.1 == i)).countP (fun r => r.1 == j) + (if j = i then 1 else 0) = l.countP fun r => r.1 == j := by
  obtain ⟨r, hr⟩ := Option.isSome_iff_exists.1 h
  obtain ⟨hri, before, after, rfl, hbefore⟩ := List.find?_eq_some_iff_append.1 hr
  have absent : ∀ b ∈ before, ¬(b.1 == i) = true := by simpa using hbefore
  rw [List.eraseP_append_right _ absent, List.eraseP_cons_of_pos (p := fun b : RecIx × PieceResult => b.1 == i) hri]
  obtain rfl : r.1 = i := by simpa using hri
  simp only [List.countP_append, List.countP_cons, beq_iff_eq, eq_comm (a := j)]
  omega

theorem Reports.nextResult_isSome {r : Reports} {i : RecIx} {p : PieceResult} (h : r.nextResult i = some p) :
    (r.pieceResults.find? (·.1 == i)).isSome := by
  obtain ⟨x, hx, -⟩ := Option.map_eq_some_iff.1 h
  rw [hx]
  rfl

/-- A result taken: one result fewer, and one piece fewer outstanding. -/
theorem outstanding_taken {owned n m outstanding : Nat} {inWork : Bool} (hm : m + 1 = n)
    (h : owned + n = if inWork then outstanding else 0) : owned + m = if inWork then outstanding - 1 else 0 := by
  cases inWork <;> simp only [Bool.false_eq_true, if_true, if_false] at h ⊢ <;> omega

theorem State.takeSuccess_eq (i : RecIx) (s : State) : (s.resultTaken i).takeSuccess i = State.examine i { s with
    xu := { s.xu with records := put s.xu.records i { s.record i with outstanding := (s.record i).outstanding - 1 } }
    reports := { s.reports with pieceResults := s.reports.pieceResults.eraseP (·.1 == i) } } := rfl

theorem State.Keeps.takeSuccess {s : State} {i : RecIx} (h : (s.reports.pieceResults.find? (·.1 == i)).isSome) :
    s.Keeps ((s.resultTaken i).takeSuccess i) := by
  rw [State.takeSuccess_eq]
  have change : s.RecordChange i { s.record i with outstanding := (s.record i).outstanding - 1 } s.ia.orderList s.cu
      (s.reports.pieceResults.eraseP (·.1 == i)) :=
    { answered := Iff.rfl
      orderPush := rfl
      orderOther := fun _ _ => rfl
      orderSelf := fun ho => ho.2 i
      ownedOther := fun _ _ => rfl
      resultsOther := fun j hj => by simpa [hj] using countP_resultTaken j h
      outstanding := fun _ hout => outstanding_taken (by simpa using countP_resultTaken i h) hout
      tags := id
      busyCounts := fun _ => id
      carving := fun _ _ _ _ => Exchange.carvingOk_of_same rfl rfl rfl id }
  refine State.Keeps.examined change (fun hf => ⟨hf, rfl⟩) fun _ _ hok => ?_
  obtain ⟨hnext, hissue, hreq, htimer, hqueued, hdone, hactive⟩ := hok
  refine Exchange.settled_ok s.holdInterval_running ⟨hnext, hissue, hreq⟩ htimer (fun hq => .inr ?_) (fun hs => ?_) hactive
  · obtain ⟨h0, hpieces, hout, habandoned, hresult⟩ := hqueued hq
    exact ⟨h0, hpieces, by simp [hout], habandoned, hresult⟩
  · obtain ⟨hout, hunissued, hresult⟩ := hdone hs
    exact ⟨by simp [hout], hunissued, hresult⟩

/-- What a piece failure makes of the record before the examination (R35). -/
def Exchange.failed (code : FaultCode) (detail : BitVec 16) (e : Exchange) : Exchange :=
  { e with
    outstanding := e.outstanding - 1
    result := if e.result = .pending then .fault code detail else e.result
    abandoned := e.hasUnissued || e.abandoned }

theorem Exchange.failed_hasUnissued (code : FaultCode) (detail : BitVec 16) (e : Exchange) : (e.failed code detail).hasUnissued = false := by
  cases hl : decide (e.nextOffset < e.issueLength) <;> cases ha : e.abandoned <;> simp [Exchange.failed, Exchange.hasUnissued, hl, ha]

/-- The Order List once an exchange's pieces are given up, if it had any unissued (R35, R36). -/
def Member.dropIf (i : RecIx) (e : Exchange) (order : List Member) : List Member :=
  if e.hasUnissued then order.filter (· != .exchange i) else order

theorem State.takeFailure_eq (code : FaultCode) (detail : BitVec 16) (i : RecIx) (s : State) :
    (s.resultTaken i).takeFailure i code detail = State.examine i { s with
      xu := { s.xu with records := put s.xu.records i ((s.record i).failed code detail) }
      ia := { s.ia with orderList := Member.dropIf i (s.record i) s.ia.orderList }
      reports := { s.reports with pieceResults := s.reports.pieceResults.eraseP (·.1 == i) } } := by
  have same : (s.resultTaken i).record i = s.record i := rfl
  simp only [State.takeFailure, same, Exchange.withFault_eq, Member.dropIf]
  cases hu : (s.record i).hasUnissued
  · simp [Exchange.failed, hu, State.setRecord_eq, State.resultTaken, State.onReports]
  · rw [if_pos rfl, State.abandon_eq, State.record_setRecord_same]
    simp [Exchange.failed, hu, State.setRecord_eq, State.resultTaken, State.onReports]

theorem State.Keeps.takeFailure {s : State} {i : RecIx} (code : FaultCode) (detail : BitVec 16)
    (h : (s.reports.pieceResults.find? (·.1 == i)).isSome) : s.Keeps ((s.resultTaken i).takeFailure i code detail) := by
  rw [State.takeFailure_eq]
  have done := (s.record i).failed_hasUnissued code detail
  have change : s.RecordChange i ((s.record i).failed code detail) (Member.dropIf i (s.record i) s.ia.orderList) s.cu
      (s.reports.pieceResults.eraseP (·.1 == i)) :=
    { answered := Iff.rfl
      orderPush := by unfold Member.dropIf; split; exacts [count_push_filter i _, rfl]
      orderOther := fun j hj => by unfold Member.dropIf; split; exacts [count_exchange_filter_other hj _, rfl]
      orderSelf := fun ho => by
        rw [done, if_neg (by simp)]
        unfold Member.dropIf
        split
        · exact count_exchange_filter_self i _
        · next hu => exact (ho.2 i).trans (if_neg fun hw => hu hw.2)
      ownedOther := fun _ _ => rfl
      resultsOther := fun j hj => by simpa [hj] using countP_resultTaken j h
      outstanding := fun _ hout => outstanding_taken (by simpa using countP_resultTaken i h) hout
      tags := id
      busyCounts := fun _ => id
      carving := fun _ _ _ _ => Exchange.carvingOk_of_same rfl rfl rfl (by simp [done]) }
  refine State.Keeps.examined change (fun hf => ⟨hf, rfl⟩) fun _ _ hok => ?_
  obtain ⟨hnext, hissue, hreq, htimer, hqueued, hdone, hactive⟩ := hok
  refine Exchange.settled_ok s.holdInterval_running ⟨hnext, hissue, hreq⟩ htimer (fun hq => .inl ⟨?_, done⟩) (fun hs => ?_) fun ha => ?_
  · show (s.record i).outstanding - 1 = 0
    rw [(hqueued hq).2.2.1]
  · obtain ⟨hout, -, hresult⟩ := hdone hs
    refine ⟨?_, done, ?_⟩
    · show (s.record i).outstanding - 1 = 0
      rw [hout]
    · show (if (s.record i).result = .pending then ExchangeResult.fault code detail else (s.record i).result) ≠ .pending
      rwa [if_neg hresult]
  · show (if (s.record i).result = .pending then ExchangeResult.fault code detail else (s.record i).result) ≠ .ok
    split
    · simp
    · exact hactive ha

end Sys2Proof.Machine
end


section
/-! CU's laws (R96 to R114) and those of the Push Queue (R67 to R76): a tag ended, the link's leaving UP, the head cut. -/

namespace Sys2Proof.Machine

/-! ### Counts over the tags when one changes -/

/-- A tag counts as one that a record owns. -/
def Tag.counts (r : Tag) (i : RecIx) : Bool := r.state == .busy && r.owner == some i

/-- A tag counts as BUSY for a node slot. -/
def Tag.countsFor (r : Tag) (n : SlotIx) : Bool := r.state == .busy && r.slot == n

theorem Tag.counts_false {r : Tag} (h : r.state ≠ .busy) (i : RecIx) : r.counts i = false := by simp [Tag.counts, h]

theorem Tag.countsFor_false {r : Tag} (h : r.state ≠ .busy) (n : SlotIx) : r.countsFor n = false := by simp [Tag.countsFor, h]

theorem CompletionUnit.ownedBy_put (u : CompletionUnit) (t : TagIx) (r : Tag) (i : RecIx) :
    CompletionUnit.ownedBy ⟨put u.tags t r⟩ i + (if (look u.tags t).counts i then 1 else 0)
      = u.ownedBy i + (if r.counts i then 1 else 0) := by
  have := countIx_change (p := fun j => (look (put u.tags t r) j).counts i) (q := fun j => (look u.tags j).counts i) t
    (fun j hj => by rw [look_put_other _ _ (Ne.symm hj)])
  rw [look_put_same] at this
  exact this

theorem CompletionUnit.busyCount_put (u : CompletionUnit) (t : TagIx) (r : Tag) (n : SlotIx) :
    CompletionUnit.busyCount ⟨put u.tags t r⟩ n + (if (look u.tags t).countsFor n then 1 else 0)
      = u.busyCount n + (if r.countsFor n then 1 else 0) := by
  have := countIx_change (p := fun j => (look (put u.tags t r) j).countsFor n) (q := fun j => (look u.tags j).countsFor n) t
    (fun j hj => by rw [look_put_other _ _ (Ne.symm hj)])
  rw [look_put_same] at this
  exact this

theorem tagsOk_put {u : CompletionUnit} {t : TagIx} {r : Tag} (hr : (look u.tags t).ok → r.ok) (h : TagsOk u) :
    TagsOk ⟨put u.tags t r⟩ := by
  intro j
  show (look (put u.tags t r) j).ok
  rw [look_put]
  split
  · exact hr (h t)
  · exact h j

/-- Tags and piece results change, each record's sum the same. -/
theorem State.Keeps.changeTags {s : State} {cu : CompletionUnit} {results : List (RecIx × PieceResult)}
    (hsum : ∀ i, cu.ownedBy i + results.countP (fun r => r.1 == i)
      = s.cu.ownedBy i + s.reports.pieceResults.countP fun r => r.1 == i)
    (htags : TagsOk s.cu → TagsOk cu) (hbusy : ∀ n, cu.busyCount n ≤ s.cu.busyCount n) :
    s.Keeps { s with cu := cu, reports := { s.reports with pieceResults := results } } where
  outstanding _ _ h i := (hsum i).trans (h i)
  tags := htags
  busyCounts _ h n := (hbusy n).trans (h n)

/-! ### A tag changed -/

theorem State.reportPiece_eq (owner : Option RecIx) (r : PieceResult) (s : State) : s.reportPiece owner r = { s with
    reports := { s.reports with pieceResults := s.reports.pieceResults ++ (owner.map fun i => (i, r)).toList } } := by
  cases owner <;> simp [State.reportPiece, State.onReports]

theorem State.setTag_eq (t : TagIx) (r : Tag) (s : State) : s.setTag t r = { s with cu := ⟨put s.cu.tags t r⟩ } := rfl

theorem Tag.cooled_ok (r : Tag) : r.cooled.ok := by simp [Tag.ok, Tag.cooled]

theorem Tag.free_ok : Tag.free.ok := by simp [Tag.ok, Tag.free]

namespace State.Keeps

variable {s : State} {t : TagIx} {r : Tag}

/-- A BUSY tag ends, and its piece's result goes to XU: one tag fewer, one result more (R111). -/
theorem endTag (hbusy : (s.tag t).state = .busy) (hr : r.state ≠ .busy) (hok : r.ok) (result : PieceResult) :
    s.Keeps ((s.setTag t r).reportPiece (s.tag t).owner result) := by
  rw [State.reportPiece_eq, State.setTag_eq]
  refine .changeTags (fun i => ?_) (tagsOk_put fun _ => hok) fun n => ?_
  · have owned := s.cu.ownedBy_put t r i
    have reported : ((s.tag t).owner.map fun i => (i, result)).toList.countP (fun r => r.1 == i)
        = if (look s.cu.tags t).counts i then 1 else 0 := by
      have busy : (look s.cu.tags t).state = .busy := hbusy
      show ((look s.cu.tags t).owner.map fun i => (i, result)).toList.countP (fun r => r.1 == i) = _
      cases ho : (look s.cu.tags t).owner <;> simp [Tag.counts, busy, ho, List.countP_cons]
    rw [r.counts_false hr i] at owned
    rw [List.countP_append, reported]
    simp only [Bool.false_eq_true, if_false] at owned
    show CompletionUnit.ownedBy ⟨put s.cu.tags t r⟩ i + (s.reports.pieceResults.countP (fun r => r.1 == i) + _)
      = s.cu.ownedBy i + s.reports.pieceResults.countP fun r => r.1 == i
    omega
  · have count := s.cu.busyCount_put t r n
    rw [r.countsFor_false hr n] at count
    simp only [Bool.false_eq_true, if_false] at count
    show CompletionUnit.busyCount ⟨put s.cu.tags t r⟩ n ≤ _
    omega

/-- A tag that stands as BUSY as before, with its owner and slot, stands in every count. -/
theorem setTag (hstate : r.state = .busy ↔ (s.tag t).state = .busy)
    (hsame : (s.tag t).state = .busy → r.owner = (s.tag t).owner ∧ r.slot = (s.tag t).slot) (hok : (s.tag t).ok → r.ok) :
    s.Keeps (s.setTag t r) := by
  rw [State.setTag_eq]
  have counts : (∀ i, r.counts i = (s.tag t).counts i) ∧ ∀ n, r.countsFor n = (s.tag t).countsFor n := by
    by_cases hb : (s.tag t).state = .busy
    · simp only [Tag.counts, Tag.countsFor, hb, hstate.2 hb, hsame hb, implies_true, and_self]
    · have hb' : r.state ≠ .busy := fun h => hb (hstate.1 h)
      simp only [Tag.counts_false hb, Tag.counts_false hb', Tag.countsFor_false hb, Tag.countsFor_false hb', implies_true, and_self]
  refine .changeTags (results := s.reports.pieceResults) (fun i => ?_) (tagsOk_put hok) fun n => ?_
  · have owned := s.cu.ownedBy_put t r i
    rw [counts.1 i] at owned
    exact congrArg (· + _) (Nat.add_right_cancel owned)
  · have count := s.cu.busyCount_put t r n
    rw [counts.2 n] at count
    exact (Nat.add_right_cancel count).le

theorem reportNode (slot : SlotIx) (report : NodeReport) (s : State) : s.Keeps (s.reportNode slot report) := .onReports rfl

end State.Keeps

theorem State.placePayload_tag (t u : TagIx) (payload : List Byte) (s : State) : (s.placePayload t payload).tag u = s.tag u := by
  unfold State.placePayload
  simp only
  split <;> rfl

namespace State.Keeps

variable {s : State} {t : TagIx}

theorem remoteFailure (status : Byte) (hbusy : (s.tag t).state = .busy) : s.Keeps (s.remoteFailure t status) :=
  .endTag hbusy (by decide) Tag.free_ok _

theorem shapeFailure (hbusy : (s.tag t).state = .busy) : s.Keeps (s.shapeFailure t) :=
  .endTag hbusy (by simp [Tag.cooled]) (Tag.cooled_ok _) _

theorem finalCompletion (payload : List Byte) (hbusy : (s.tag t).state = .busy) : s.Keeps (s.finalCompletion t payload) := by
  have placed := State.Keeps.placePayload t payload s
  have same := s.placePayload_tag t t payload
  have ended := State.Keeps.endTag (same ▸ hbusy) (by decide : Tag.free.state ≠ .busy) Tag.free_ok .success
  rw [same] at ended
  exact (placed.trans ended).trans (.reportNode ..)

/-- The bytes a partial CPL brings are no more than the tag is owed (R101). -/
theorem partialCompletion {payload : List Byte} (hbusy : (s.tag t).state = .busy) (howed : payload.length ≤ (s.tag t).expected) :
    s.Keeps (s.partialCompletion t payload) := by
  have placed := State.Keeps.placePayload t payload s
  have same := s.placePayload_tag t t payload
  refine placed.trans (.setTag ?_ ?_ ?_) <;> rw [same]
  · exact fun _ => ⟨rfl, rfl⟩
  · intro hok
    simp only [Tag.ok, hbusy] at hok ⊢
    refine ⟨hok.1, ?_⟩
    unfold Tag.expected at howed
    split at howed <;> omega

theorem busyCompletion (status : Byte) (remaining : BitVec 16) (payload : List Byte) (hbusy : (s.tag t).state = .busy) :
    s.Keeps (s.busyCompletion t status remaining payload) :=
  .ite (fun _ => .remoteFailure status hbusy) fun _ => .ite
    (fun howed => .ite (fun _ => .finalCompletion payload hbusy) fun _ => .partialCompletion hbusy howed.1)
    fun _ => .shapeFailure hbusy

theorem pieceTimesOut (hbusy : (s.tag t).state = .busy) : s.Keeps (s.pieceTimesOut t) := by
  have ended := State.Keeps.endTag hbusy (by simp [Tag.cooled] : (s.tag t).cooled.state ≠ .busy) (Tag.cooled_ok _)
    (.failure .timeout (detailOf 0 (s.tag t).start))
  have counted := ended.trans (.bump .completionTimeouts 1 _)
  have same : ((s.setTag t (s.tag t).cooled).bump .completionTimeouts 1).reportPiece (s.tag t).owner
        (.failure .timeout (detailOf 0 (s.tag t).start))
      = ((s.setTag t (s.tag t).cooled).reportPiece (s.tag t).owner (.failure .timeout (detailOf 0 (s.tag t).start))).bump
        .completionTimeouts 1 := by
    rw [State.reportPiece_eq, State.reportPiece_eq]
    rfl
  rw [← same] at counted
  exact counted.trans (.reportNode ..)

theorem coolDown (hcool : (s.tag t).state = .cooling) : s.Keeps (s.setTag t Tag.free) :=
  .setTag (by simp [hcool, Tag.free]) (by simp [hcool]) fun _ => Tag.free_ok

theorem cutTag (reason : DownReason) (hbusy : (s.tag t).state = .busy) : s.Keeps (s.cutTag reason t) :=
  .endTag hbusy (by simp [Tag.cooled]) (Tag.cooled_ok _) _

end State.Keeps

theorem State.cutTag_tag_other {t u : TagIx} (reason : DownReason) (s : State) (h : t ≠ u) : (s.cutTag reason t).tag u = s.tag u := by
  unfold State.cutTag
  rw [State.reportPiece_eq]
  exact look_put_other _ _ h

theorem CompletionUnit.mem_busyTags {u : CompletionUnit} {t : TagIx} : t ∈ u.busyTags ↔ (look u.tags t).state = .busy := by
  simp [CompletionUnit.busyTags]

theorem CompletionUnit.busyTags_nodup (u : CompletionUnit) : u.busyTags.Nodup := (List.nodup_finRange 32).filter _

/-- Distinct BUSY tags, one after another. -/
theorem State.Keeps.cutTagList (reason : DownReason) {l : List TagIx} {s : State} (hnodup : l.Nodup)
    (hbusy : ∀ t ∈ l, (s.tag t).state = .busy) : s.Keeps (l.foldl (fun u t => u.cutTag reason t) s) := by
  induction l generalizing s with
  | nil => exact .refl s
  | cons t l ih =>
    obtain ⟨hnew, hrest⟩ := List.nodup_cons.1 hnodup
    refine (State.Keeps.cutTag reason (hbusy t (by simp))).trans (ih hrest fun u hu => ?_)
    have other : t ≠ u := fun e => hnew (e ▸ hu)
    rw [State.cutTag_tag_other reason s other]
    exact hbusy u (by simp [hu])

theorem State.Keeps.cutTags (reason : DownReason) (s : State) : s.Keeps (s.cutTags reason) :=
  .cutTagList reason s.cu.busyTags_nodup fun _ => CompletionUnit.mem_busyTags.1

/-! ### The Push Queue -/

theorem PushQueue.bytesHeld_append (l : List Push) (p : Push) : PushQueue.bytesHeld ⟨l ++ [p]⟩ = PushQueue.bytesHeld ⟨l⟩ + p.length := by
  simp [PushQueue.bytesHeld]

theorem pushesOk_tail {q : PushQueue} (h : PushesOk q) : PushesOk ⟨q.pushes.tail⟩ := by
  obtain ⟨hplaces, hbytes, heach, hstarted⟩ := h
  refine ⟨?_, ?_, fun p hp => heach p (List.mem_of_mem_tail hp), fun p hp => hstarted p (List.mem_of_mem_tail hp)⟩
  · exact (List.tail_sublist q.pushes).length_le.trans hplaces
  · exact (List.Sublist.sum_le_sum ((List.tail_sublist q.pushes).map _) fun _ _ => Nat.zero_le _).trans hbytes

namespace State.Keeps

/-- The head leaves the queue and the Order List together (R72, R73). -/
theorem headLeaves (s : State) : s.Keeps s.headLeaves where
  pushes := pushesOk_tail
  order ho ha := by
    refine ⟨⟨?_, fun i => ?_⟩, ha⟩
    · show (s.ia.orderList.erase .push).count .push = s.pq.pushes.tail.length
      rw [List.count_erase_self, ho.1, List.length_tail]
    · show (s.ia.orderList.erase .push).count (.exchange i) = _
      rw [List.count_erase_of_ne (by simp)]
      exact ho.2 i

theorem cutHead (s : State) : s.Keeps s.cutHead := by
  unfold State.cutHead
  split
  · exact .refl s
  · next p _ _ =>
    exact (State.Keeps.trans (.bump .pushBytesCut p.unissued s) (.offer .pushCut p.cutArg _)).trans (.headLeaves _)

theorem cutHeads (n : Nat) (s : State) : s.Keeps (s.cutHeads n) := by
  induction n generalizing s with
  | zero => exact .refl s
  | succ n ih => exact (State.Keeps.cutHead s).trans (ih _)

theorem cutQuietHeads (n : Nat) (s : State) : s.Keeps (s.cutQuietHeads n) := by
  induction n generalizing s with
  | zero => exact .refl s
  | succ n ih => exact .ite (fun _ => (State.Keeps.cutHead s).trans (ih _)) fun _ => .refl s

theorem testHead (s : State) : s.Keeps s.testHead := .cutQuietHeads _ s

theorem cutStartedHead (s : State) : s.Keeps s.cutStartedHead := by
  unfold State.cutStartedHead
  split
  · exact .refl s
  · exact .ite (fun _ => (State.Keeps.cutHead s).trans (.testHead _)) fun _ => .refl s

end State.Keeps

end Sys2Proof.Machine
end


section
/-! IA (R80 to R90): which member it picks, what the issue of a piece comes to, and that an arbitration keeps the laws. -/

namespace Sys2Proof.Machine

/-! ### The members and the pick (R80, R82, R85) -/

/-- A member view is read off an exchange of the Order List or off a push of the queue. -/
theorem mem_memberViews {records : Vector Exchange 8} {order : List Member} {pushes : List Push} {v : MemberView}
    (h : v ∈ memberViews records order pushes) :
    (∃ i, .exchange i ∈ order ∧ v = exchangeView i (look records i)) ∨ ∃ p ∈ pushes, .push ∈ order ∧ v = pushView p := by
  induction order generalizing pushes with
  | nil => simp [memberViews] at h
  | cons m order ih =>
    cases m with
    | exchange i =>
      rw [memberViews] at h
      rcases List.mem_cons.1 h with rfl | h
      · exact .inl ⟨i, by simp, rfl⟩
      · rcases ih h with ⟨j, hj, hv⟩ | ⟨p, hp, hm, hv⟩
        · exact .inl ⟨j, by simp [hj], hv⟩
        · exact .inr ⟨p, hp, by simp [hm], hv⟩
    | push =>
      cases pushes with
      | nil =>
        rw [memberViews] at h
        rcases ih h with ⟨j, hj, hv⟩ | ⟨p, hp, -, -⟩
        · exact .inl ⟨j, by simp [hj], hv⟩
        · simp at hp
      | cons q pushes =>
        rw [memberViews] at h
        rcases List.mem_cons.1 h with rfl | h
        · exact .inr ⟨q, by simp, by simp, rfl⟩
        · rcases ih h with ⟨j, hj, hv⟩ | ⟨p, hp, hm, hv⟩
          · exact .inl ⟨j, by simp [hj], hv⟩
          · exact .inr ⟨p, by simp [hp], by simp [hm], hv⟩

/-- The member picked stands behind members that it may pass, its conditions hold, and no member before it could be picked (R85). -/
theorem State.pickFrom_eq_some {s : State} {earlier l : List MemberView} {v : MemberView} :
    s.pickFrom earlier l = some v ↔ ∃ before after, l = before ++ v :: after
      ∧ (∀ u ∈ earlier ++ before, mayPass v u = true) ∧ s.resourcesFor v = true
      ∧ ∀ first u more, before = first ++ u :: more →
        ¬((∀ w ∈ earlier ++ first, mayPass u w = true) ∧ s.resourcesFor u = true) := by
  induction l generalizing earlier with
  | nil => simp [State.pickFrom]
  | cons x xs ih =>
    rw [State.pickFrom]
    have eligible : (earlier.all (mayPass x) && s.resourcesFor x) = true ↔ (∀ w ∈ earlier, mayPass x w = true) ∧ s.resourcesFor x = true := by
      simp [List.all_eq_true]
    by_cases hx : (earlier.all (mayPass x) && s.resourcesFor x) = true
    · rw [if_pos hx]
      constructor
      · intro h
        obtain rfl : x = v := by simpa using h
        exact ⟨[], xs, rfl, by simpa using (eligible.1 hx).1, (eligible.1 hx).2, by simp⟩
      · rintro ⟨before, after, hl, -, -, hfirst⟩
        cases before with
        | nil => simp at hl; simp [hl.1]
        | cons y ys =>
          obtain ⟨rfl, -⟩ := List.cons.inj hl
          exact absurd (by simpa using eligible.1 hx) (hfirst [] x ys rfl)
    · rw [if_neg hx, ih]
      constructor
      · rintro ⟨before, after, rfl, hpass, hres, hfirst⟩
        refine ⟨x :: before, after, rfl, by simpa using hpass, hres, fun first u more hb => ?_⟩
        cases first with
        | nil =>
          obtain ⟨rfl, -⟩ := List.cons.inj hb
          simpa using fun h => hx (eligible.2 h)
        | cons y ys =>
          obtain ⟨rfl, rfl⟩ := List.cons.inj hb
          simpa using hfirst ys u more rfl
      · rintro ⟨before, after, hl, hpass, hres, hfirst⟩
        cases before with
        | nil =>
          obtain ⟨rfl, -⟩ := List.cons.inj hl
          exact absurd (eligible.2 ⟨by simpa using hpass, hres⟩) hx
        | cons y ys =>
          obtain ⟨rfl, rfl⟩ := List.cons.inj hl
          exact ⟨ys, after, rfl, by simpa using hpass, hres, fun first u more hb => by
            simpa using hfirst (x :: first) u more (by rw [hb]; rfl)⟩

theorem State.pick_spec {s : State} {v : MemberView} (h : s.pick = some v) : v ∈ s.members ∧ s.resourcesFor v = true := by
  obtain ⟨before, after, hl, -, hres, -⟩ := State.pickFrom_eq_some.1 h
  exact ⟨by rw [hl]; simp, hres⟩

/-- An exchange picked stands in the Order List, and its conditions are judged for its own slot (R84). -/
theorem State.pick_exchange {s : State} {v : MemberView} {i : RecIx} (h : s.pick = some v) (hm : v.member = .exchange i) :
    .exchange i ∈ s.ia.orderList ∧ v = exchangeView i (s.record i) ∧ s.resourcesFor v = true := by
  obtain ⟨hmem, hres⟩ := State.pick_spec h
  rcases mem_memberViews hmem with ⟨j, hj, rfl⟩ | ⟨p, -, -, rfl⟩
  · obtain rfl : j = i := by simpa [exchangeView] using hm
    exact ⟨hj, rfl, hres⟩
  · simp [pushView] at hm

/-- A push picked leaves the queue not empty. -/
theorem State.pick_push {s : State} {v : MemberView} (h : s.pick = some v) (hm : v.member = .push) :
    s.pq.pushes ≠ [] ∧ s.resourcesFor v = true := by
  obtain ⟨hmem, hres⟩ := State.pick_spec h
  rcases mem_memberViews hmem with ⟨j, hj, rfl⟩ | ⟨p, hp, -, rfl⟩
  · simp [exchangeView] at hm
  · exact ⟨List.ne_nil_of_mem hp, hres⟩

/-! ### The conditions of R84 -/

theorem State.resourcesFor_link {s : State} {v : MemberView} (h : s.resourcesFor v = true) : s.tp.link = .up := by
  simp only [State.resourcesFor, Bool.and_eq_true, beq_iff_eq] at h
  exact h.1.1

theorem State.resourcesFor_slot {s : State} {v : MemberView} (h : s.resourcesFor v = true) : (look s.tu.nodes v.slot).state ≠ .unused := by
  simp only [State.resourcesFor, Bool.and_eq_true, beq_iff_eq] at h
  intro hu
  have := h.1.2
  simp [State.judgedLive, hu] at this

theorem State.resourcesFor_exchange {s : State} {i : RecIx} {e : Exchange} (h : s.resourcesFor (exchangeView i e) = true) :
    s.cu.freeTag.isSome = true ∧ s.cu.busyCount e.slot < (look s.tu.nodes e.slot).limit.toNat
      ∧ creditAvailable s.tp.requestLimit s.tp.requestConsumed ≠ 0 := by
  obtain ⟨-, work⟩ := Bool.and_eq_true_iff.1 h
  cases hk : e.kind <;> simpa [exchangeView, hk, and_assoc] using work

/-! ### The issue of a piece of an exchange (R86, R87) -/

/-- The Order List once a piece is issued: a member with nothing left leaves it (R87). -/
def Member.leaveIfDone (i : RecIx) (e : Exchange) (order : List Member) : List Member :=
  if e.hasUnissued then order else order.filter (· != .exchange i)

theorem State.issueExchange_eq {s : State} {i : RecIx} {t : TagIx} (ht : s.cu.freeTag = some t) : s.issueExchange i = { s with
    tp := { s.tp with requestConsumed := s.tp.requestConsumed + 1 }
    cu := ⟨put s.cu.tags t (s.tagFor i)⟩
    xu := { s.xu with records := put s.xu.records i ((s.record i).issued (s.exchangePiece i).2) }
    ia := { s.ia with
      orderList := Member.leaveIfDone i ((s.record i).issued (s.exchangePiece i).2) s.ia.orderList
      transmitter := .sending (s.exchangePacket i t) s.rateInForce .nothing
      idleTimer := none } } := by
  simp only [State.issueExchange, ht, Member.leaveIfDone]
  split <;> rfl

theorem CompletionUnit.freeTag_free {u : CompletionUnit} {t : TagIx} (h : u.freeTag = some t) : (look u.tags t).state = .free := by
  simpa using (firstIx_some.1 h).1

/-! ### Carving (R18, R86) -/

/-- The effective piece size of a slot in use is 64, 128, 256 or 512 while the link is UP (R86). -/
theorem State.effectivePiece_cases {s : State} {n : SlotIx} (hn : NodesOk s.tu) (hneg : NegotiationOk s) (hl : s.tp.link = .up)
    (hslot : (look s.tu.nodes n).state ≠ .unused) :
    s.effectivePiece n = 64 ∨ s.effectivePiece n = 128 ∨ s.effectivePiece n = 256 ∨ s.effectivePiece n = 512 := by
  obtain ⟨-, -, hsize, -⟩ := (nodeOk_of_used hslot).1 (hn n)
  obtain ⟨-, -, hmax, -⟩ := hneg.2.2.1 (.inr hl)
  unfold State.effectivePiece
  rcases hsize with h | h | h | h <;> rcases hmax with h' | h' | h' | h' <;> rw [h, h'] <;> decide

/-- A piece that leaves more to issue ends at a multiple of its piece size, so the pieces stay within the multiples of 64 crossed, and
at most four stand before a fifth. -/
theorem carve_pieces {p a n issue pieces : Nat} (hp : p = 64 ∨ p = 128 ∨ p = 256 ∨ p = 512) (hn : n < issue) (hissue : issue ≤ 256)
    (hpieces : pieces ≤ (a + n) / 64 - a / 64) :
    pieces + 1 ≤ 5 ∧ (n + min (p - (a + n) % p) (issue - n) < issue →
      pieces + 1 ≤ (a + (n + min (p - (a + n) % p) (issue - n))) / 64 - a / 64
        ∧ (a + (n + min (p - (a + n) % p) (issue - n))) % 64 = 0) := by
  refine ⟨by omega, fun h => ?_⟩
  rcases hp with rfl | rfl | rfl | rfl <;> omega

/-- The start address of a piece modulo a piece size is that of the sum without the wrap at 40 bits. -/
theorem start_mod {p n : Nat} (a : FabricAddr) (hp : p = 64 ∨ p = 128 ∨ p = 256 ∨ p = 512) :
    (a + BitVec.ofNat 40 n).toNat % p = (a.toNat + n) % p := by
  rw [BitVec.toNat_add, BitVec.toNat_ofNat]
  rcases hp with rfl | rfl | rfl | rfl <;> omega

theorem Exchange.hasUnissued_iff (e : Exchange) : e.hasUnissued = true ↔ e.nextOffset < e.issueLength ∧ e.abandoned = false := by
  simp [Exchange.hasUnissued]

theorem Exchange.issued_carvingOk {e : Exchange} {p : Nat} (hp : p = 64 ∨ p = 128 ∨ p = 256 ∨ p = 512) (hissue : e.issueLength ≤ 256)
    (hu : e.hasUnissued = true) (h : e.carvingOk) :
    (e.issued (carve p (e.addr + BitVec.ofNat 40 e.nextOffset).toNat (e.issueLength - e.nextOffset))).carvingOk := by
  obtain ⟨hpieces, -⟩ := h.2 hu
  obtain ⟨hfive, hmore⟩ := carve_pieces hp (e.hasUnissued_iff.1 hu).1 hissue hpieces
  rw [carve, start_mod e.addr hp]
  refine ⟨hfive, fun hu' => ?_⟩
  obtain ⟨hcount, hstands⟩ := hmore ((Exchange.hasUnissued_iff _).1 hu').1
  exact ⟨hcount, fun _ => hstands⟩

/-! ### The issue keeps the laws -/

theorem Exchange.issued_ok {e : Exchange} {length : Nat} (hw : e.inWork = true) (hlen : length ≤ e.issueLength - e.nextOffset) (h : e.ok) :
    (e.issued length).ok := by
  obtain ⟨hnext, hissue, hreq, htimer, hqueued, hdone, hactive⟩ := h
  have active : (e.issued length).state = .active := by
    rcases e.inWork_iff.1 hw with hs | hs <;> simp [Exchange.issued, hs]
  have stopped : e.holdTimer = none := by
    by_contra hne
    rcases e.inWork_iff.1 hw with hs | hs <;> simpa [hs] using htimer.1 hne
  refine ⟨?_, hissue, hreq, ?_, by simp [active], by simp [active], fun _ => ?_⟩
  · show e.nextOffset + length ≤ e.issueLength
    omega
  · rw [active]
    simp [Exchange.issued, stopped]
  · show e.result ≠ .ok
    rcases e.inWork_iff.1 hw with hs | hs
    · simp [(hqueued hs).2.2.2.2]
    · exact hactive hs

/-- A member of the Order List is in work with unissued pieces. -/
theorem OrderListOk.waits {s : State} (h : OrderListOk s) {i : RecIx} (hi : .exchange i ∈ s.ia.orderList) :
    (s.record i).inWork = true ∧ (s.record i).hasUnissued = true := by
  have count := h.2 i
  by_contra hw
  rw [if_neg hw] at count
  exact absurd hi (List.count_eq_zero.1 count)

theorem Exchange.issued_inWork (e : Exchange) (length : Nat) : (e.issued length).inWork = e.inWork := by
  cases hs : e.state <;> simp [Exchange.inWork, Exchange.issued, hs]

theorem State.RecordChange.issue {s : State} {i : RecIx} {t : TagIx} (hmem : .exchange i ∈ s.ia.orderList)
    (hres : s.resourcesFor (exchangeView i (s.record i)) = true) (ht : s.cu.freeTag = some t) :
    s.RecordChange i ((s.record i).issued (s.exchangePiece i).2)
      (Member.leaveIfDone i ((s.record i).issued (s.exchangePiece i).2) s.ia.orderList)
      ⟨put s.cu.tags t (s.tagFor i)⟩ s.reports.pieceResults := by
  have free := CompletionUnit.freeTag_free ht
  have notBusy : (look s.cu.tags t).state ≠ .busy := by simp [free]
  refine
    { answered := by cases hs : (s.record i).state <;> simp [Exchange.issued, hs]
      orderPush := by unfold Member.leaveIfDone; split; exacts [rfl, count_push_filter i _]
      orderOther := fun j hj => by unfold Member.leaveIfDone; split; exacts [rfl, count_exchange_filter_other hj _]
      orderSelf := fun ho => ?_
      ownedOther := fun j hj => ?_
      resultsOther := fun _ _ => rfl
      outstanding := fun ho hout => ?_
      tags := tagsOk_put fun _ => by simp [Tag.ok, State.tagFor]
      busyCounts := fun hn hb n => ?_
      carving := fun ho hn hneg hok hc => ?_ }
  · have hw := (ho.waits hmem).1
    unfold Member.leaveIfDone
    split
    · next hu =>
      rw [if_pos ⟨by rw [Exchange.issued_inWork]; exact hw, hu⟩]
      exact (ho.2 i).trans (if_pos (ho.waits hmem))
    · next hu => rw [count_exchange_filter_self, if_neg fun h => hu h.2]
  · have owned := s.cu.ownedBy_put t (s.tagFor i) j
    have other : (s.tagFor i).counts j = false := by simp [Tag.counts, State.tagFor, Ne.symm hj]
    rw [Tag.counts_false notBusy, other] at owned
    exact owned
  · have hw := (ho.waits hmem).1
    have owned := s.cu.ownedBy_put t (s.tagFor i) i
    have self : (s.tagFor i).counts i = true := by simp [Tag.counts, State.tagFor]
    rw [Tag.counts_false notBusy, self] at owned
    rw [if_pos hw] at hout
    rw [Exchange.issued_inWork, if_pos hw]
    show _ = (s.record i).outstanding + 1
    simp only [Bool.false_eq_true, if_false, if_true] at owned
    omega
  · obtain ⟨-, hlimit, -⟩ := State.resourcesFor_exchange hres
    have slot : (look s.tu.nodes (s.record i).slot).state ≠ .unused := State.resourcesFor_slot hres
    obtain ⟨-, -, -, -, hlim, -⟩ := (nodeOk_of_used slot).1 (hn _)
    have count := s.cu.busyCount_put t (s.tagFor i) n
    rw [Tag.countsFor_false notBusy] at count
    simp only [Bool.false_eq_true, if_false] at count
    by_cases hsn : (s.record i).slot = n
    · subst hsn
      split at count <;> omega
    · have other : (s.tagFor i).countsFor n = false := by simp [Tag.countsFor, State.tagFor, hsn]
      have := hb n
      simp only [other, Bool.false_eq_true, if_false] at count
      omega
  · exact Exchange.issued_carvingOk
      (State.effectivePiece_cases hn hneg (State.resourcesFor_link hres) (State.resourcesFor_slot hres)) hok.2.1 (ho.waits hmem).2 hc

namespace State.Keeps

variable {s : State}

/-- A credit consumed in UP (R161). -/
theorem consume {f : TrunkPort → TrunkPort} (ht : LinkTimersOk s → LinkTimersOk (s.onTp f))
    (hlink : (f s.tp).link = .up) (hn : NegotiationOk s → NegotiationOk (s.onTp f)) : s.Keeps (s.onTp f) :=
  .onTp ht (fun _ _ hu => absurd hlink hu) hn

theorem send (p : Packet) (e : PacketEffect) (s : State) : s.Keeps (s.send p e) := .onIa rfl

theorem issueExchange {i : RecIx} (hmem : .exchange i ∈ s.ia.orderList) (hres : s.resourcesFor (exchangeView i (s.record i)) = true) :
    s.Keeps (s.issueExchange i) := by
  obtain ⟨t, ht⟩ := Option.isSome_iff_exists.1 (State.resourcesFor_exchange hres).1
  rw [State.issueExchange_eq ht]
  have hl := State.resourcesFor_link hres
  have xnos : XnosOk s.xu → XnosOk { s.xu with records := put s.xu.records i ((s.record i).issued (s.exchangePiece i).2) } :=
    xnosOk_put fun hf => ⟨fun h => hf (by simp [Exchange.issued, State.record, h]), rfl⟩
  have changed := State.Keeps.changeRecord (x := True) (State.RecordChange.issue hmem hres ht) (fun _ => xnos) fun ho _ hok =>
    Exchange.issued_ok (ho.waits hmem).1 (Nat.min_le_right _ _) hok
  have consumed := changed.trans (.consume (f := fun p => { p with requestConsumed := p.requestConsumed + 1 }) id hl id)
  exact consumed.trans (.onIa (f := fun a => { a with
    transmitter := .sending (s.exchangePacket i t) s.rateInForce .nothing, idleTimer := none }) rfl)

/-- The head push goes on with bytes unissued (R72, R88). -/
theorem pushOn {p : Push} {rest : List Push} {issued : Nat} (hp : s.pq.pushes = p :: rest) (hlt : issued < p.length) :
    s.Keeps (s.onPq fun _ => ⟨{ p with issued := issued } :: rest⟩) where
  pushes h := by
    obtain ⟨hplaces, hbytes, heach, hstarted⟩ := h
    simp only [PushQueue.bytesHeld, State.onPq] at hbytes ⊢
    rw [hp] at hplaces hbytes heach hstarted
    refine ⟨hplaces, hbytes, fun q hq => ?_, hstarted⟩
    rcases List.mem_cons.1 hq with rfl | hq
    · obtain ⟨h1, h240, -⟩ := heach p (by simp)
      exact ⟨h1, h240, hlt⟩
    · exact heach q (by simp [hq])
  order ho ha := ⟨⟨ho.1.trans (by rw [hp]; rfl), ho.2⟩, ha⟩

theorem issuePush (hl : s.tp.link = .up) : s.Keeps s.issuePush := by
  unfold State.issuePush
  split
  · exact .refl s
  · next p rest hp =>
    have sent (packet) :=
      (State.Keeps.consume (s := s) (f := fun t => { t with pushConsumed := t.pushConsumed + 1 }) id hl id).trans (.send packet .nothing _)
    exact .ite (fun _ => ((sent _).trans (.headLeaves _)).trans (.testHead _)) fun hlt =>
      (sent _).trans (.pushOn hp (Nat.lt_of_not_le hlt))

theorem issueNext (s : State) : s.Keeps s.issueNext := by
  unfold State.issueNext
  split
  · exact .refl s
  · next v hv =>
    split
    · next i hm =>
      obtain ⟨hmem, rfl, hres⟩ := State.pick_exchange hv hm
      exact .issueExchange hmem hres
    · exact .issuePush (State.resourcesFor_link (State.pick_spec hv).2)

theorem sendNegotiation (s : State) : s.Keeps s.sendNegotiation := by
  unfold State.sendNegotiation
  split
  · exact (State.Keeps.onIa rfl).trans (.send ..)
  · exact .ite (fun _ => (State.Keeps.onIa rfl).trans (.send ..)) fun _ => .refl s

theorem sendWork (s : State) : s.Keeps s.sendWork := by
  refine .ite (fun _ => (State.Keeps.onIa rfl).trans (.send ..)) fun _ => ?_
  split
  · exact (State.Keeps.onIa rfl).trans (.send ..)
  · exact .issueNext s

theorem arbitrate (s : State) : s.Keeps s.arbitrate := by
  unfold State.arbitrate
  split
  · exact .refl s
  · split
    · exact .sendNegotiation s
    · exact .sendWork s
    all_goals exact .refl s

theorem startIdle (s : State) : s.Keeps s.startIdle := .ite (fun _ => .onIa rfl) fun _ => .refl s

theorem idleExpires (s : State) : s.Keeps s.idleExpires := by
  refine .ite (fun _ => .refl s) fun _ => ?_
  have judged := (State.Keeps.onIa (s := s) (f := fun a => { a with idleTimer := none }) rfl).trans (.arbitrate _)
  exact .ite (fun _ => judged.trans (.send ..)) fun _ => judged

end State.Keeps

end Sys2Proof.Machine
end


section
/-! The handling of a request (R15, R20 to R27, R69 to R71) and MU's access to the management space (R166 to R177) keep the laws. -/

namespace Sys2Proof.Machine

/-! ### A request of good form, resolved -/

theorem LineRequest.wellFormed_read {r : LineRequest} (hk : r.kind = .read) (hw : r.wellFormed = true) :
    1 ≤ r.readLength ∧ r.readLength ≤ 240 := by
  simp only [LineRequest.wellFormed, hk, Bool.and_eq_true, decide_eq_true_eq] at hw
  exact ⟨hw.1.2, hw.2⟩

theorem LineRequest.wellFormed_data {r : LineRequest} (hk : r.kind = .write ∨ r.kind = .push) (hw : r.wellFormed = true) :
    1 ≤ r.data.length ∧ r.data.length ≤ 240 := by
  have h : 5 ≤ r.payload.length ∧ r.payload.length ≤ 244 := by
    rcases hk with hk | hk <;> simpa [LineRequest.wellFormed, hk] using hw
  rw [LineRequest.data, List.length_drop]
  omega

/-- The lengths that an exchange request of good form may ask (R9). -/
theorem LineRequest.wellFormed_length {r : LineRequest} {kind : ExchangeKind} (hk : kind = .read ∧ r.kind = .read ∨ kind = .write ∧ r.kind = .write)
    (hw : r.wellFormed = true) : 1 ≤ r.length kind ∧ r.length kind ≤ 240 := by
  rcases hk with ⟨rfl, hk⟩ | ⟨rfl, hk⟩
  · exact LineRequest.wellFormed_read hk hw
  · exact LineRequest.wellFormed_data (.inl hk) hw

/-- What is resolved lies within its window's span (R46). -/
theorem State.resolve_room {s : State} {kind : WorkKind} {unit : Byte} {offset length : Nat} {res : Resolution}
    (h : s.resolve kind unit offset length = .ok res) : length ≤ res.room := by
  unfold State.resolve at h
  split at h
  · cases h
  · simp only at h
    split at h
    · cases h
    split at h
    · cases h
    next hspan =>
    split at h
    · cases h
    split at h
    · cases h
    cases h
    show length ≤ _ - offset
    omega

theorem fetchLength_bounds {kind : ExchangeKind} {res : Resolution} {length : Nat} (hlen : length ≤ 240) (hroom : length ≤ res.room) :
    length ≤ fetchLength kind res length ∧ fetchLength kind res length ≤ 256 := by
  unfold fetchLength
  split <;> omega

/-! ### A new exchange (R24, R25) -/

theorem newExchange_ok (r : LineRequest) (kind : ExchangeKind) {res : Resolution} {length : Nat} (hlen : length ≤ 240)
    (hroom : length ≤ res.room) : (newExchange r kind res length).ok := by
  obtain ⟨hreq, hissue⟩ := fetchLength_bounds (kind := kind) hlen hroom
  exact ⟨Nat.zero_le _, hissue, hreq, by simp [newExchange], fun _ => ⟨rfl, rfl, rfl, rfl, rfl⟩, by simp [newExchange], by simp [newExchange]⟩

theorem newExchange_waits (r : LineRequest) (kind : ExchangeKind) {res : Resolution} {length : Nat} (h1 : 1 ≤ length) (hlen : length ≤ 240)
    (hroom : length ≤ res.room) : (newExchange r kind res length).inWork = true ∧ (newExchange r kind res length).hasUnissued = true := by
  obtain ⟨hreq, -⟩ := fetchLength_bounds (kind := kind) hlen hroom
  refine ⟨rfl, (Exchange.hasUnissued_iff _).2 ⟨?_, rfl⟩⟩
  show 0 < fetchLength kind res length
  omega

/-- A new exchange in a record out of work joins the Order List (R25, R80). -/
theorem State.RecordChange.accepted {s : State} {i : RecIx} {e : Exchange} (hfree : (s.record i).state = .free) (hstate : e.state = .queued)
    (hw : e.inWork = true ∧ e.hasUnissued = true) (hnone : e.outstanding = 0) (hpieces : e.piecesIssued = 0) :
    s.RecordChange i e (s.ia.orderList ++ [.exchange i]) s.cu s.reports.pieceResults where
  answered := by simp [hstate, hfree]
  orderPush := by simp
  orderOther j hj := by simp [Ne.symm hj]
  orderSelf ho := by
    have absent : s.ia.orderList.count (.exchange i) = 0 := (ho.2 i).trans (if_neg fun h => by simp [Exchange.inWork, hfree] at h)
    rw [if_pos hw, List.count_append, absent]
    simp
  ownedOther _ _ := rfl
  resultsOther _ _ := rfl
  outstanding _ h := by
    rw [if_pos hw.1, hnone]
    simpa [Exchange.inWork, hfree] using h
  tags h := h
  busyCounts _ h := h
  carving _ _ _ _ _ := by simp [Exchange.carvingOk, hpieces]

/-- The record a new exchange takes is FREE, or holds an ANSWERED exchange (R24). -/
theorem ExchangeUnit.allocation_inWork {u : ExchangeUnit} {i : RecIx} (h : u.allocation = some i) (hr : AnswerRanksOk u) :
    (look u.records i).inWork = false := by
  unfold ExchangeUnit.allocation at h
  split at h
  · next hfirst =>
    cases h
    have hfree : (look u.records i).state = .free := by simpa using (firstIx_some.1 hfirst).1
    simp [Exchange.inWork, hfree]
  · have := (hr.2 i).1 (List.mem_of_mem_head? h)
    simp [Exchange.inWork, this]

namespace State.Keeps

variable {s : State} {x : Prop}

theorem acceptExchange {r : LineRequest} {kind : ExchangeKind} {res : Resolution} {length : Nat} {i : RecIx}
    (hclear : x → ∀ j, (s.record j).state = .free ∨ (s.record j).xno ≠ r.xno) (h1 : 1 ≤ length) (hlen : length ≤ 240)
    (hroom : length ≤ res.room) (hi : s.xu.allocation = some i) : s.Keeps (s.acceptExchange r kind res length i) x := by
  have freed : s.Keeps (s.freeRecord i) := .freeRecord (ExchangeUnit.allocation_inWork hi)
  have xnos : x → XnosOk (s.freeRecord i).xu →
      XnosOk { (s.freeRecord i).xu with records := put (s.freeRecord i).xu.records i (newExchange r kind res length) } := by
    refine fun hx => xnosOk_putNew fun j hj hf => ?_
    have other : look (s.freeRecord i).xu.records j = s.record j := State.record_freeRecord_other (Ne.symm hj) s
    rw [other] at hf ⊢
    exact (hclear hx j).resolve_left hf
  have admitted := State.Keeps.changeRecord
    (State.RecordChange.accepted (e := newExchange r kind res length) (s.record_freeRecord_same i ▸ rfl) rfl
      (newExchange_waits r kind h1 hlen hroom) rfl rfl) xnos
    fun _ _ _ => newExchange_ok r kind hlen hroom
  have entered := freed.weaken.trans admitted
  unfold State.acceptExchange
  cases kind with
  | read => exact (entered.trans (State.Keeps.answer ..).weaken).trans (State.Keeps.arbitrate _).weaken
  | write =>
    exact ((entered.trans (State.Keeps.writeAccepted res.slot res.addr length _).weaken).trans (State.Keeps.answer ..).weaken).trans
      (State.Keeps.arbitrate _).weaken

theorem newRequest {r : LineRequest} {kind : ExchangeKind}
    (hclear : x → ∀ j, (s.record j).state = .free ∨ (s.record j).xno ≠ r.xno) (hlen : 1 ≤ r.length kind ∧ r.length kind ≤ 240) :
    s.Keeps (s.newRequest r kind) x := by
  unfold State.newRequest
  split
  · exact (State.Keeps.answerFault ..).weaken
  · next res hres =>
    split
    · next b hb =>
      unfold State.retentionHit at hb
      split at hb
      · exact ((State.Keeps.onRu (buffersOk_touch _ (RetentionUnit.hit_valid hb))).trans (.answer ..)).weaken
      · cases hb
    · unfold State.allocate
      split
      · next i hi => exact .acceptExchange hclear hlen.1 hlen.2 (State.resolve_room hres) hi
      · exact (State.Keeps.answerBusy ..).weaken

theorem meetLive (r : LineRequest) (i : RecIx) (s : State) : s.Keeps (s.meetLive r i) := by
  refine .ite (fun _ => ?_) fun _ => .answerFault ..
  split
  · exact .answer ..
  · exact .answer ..
  · next hs => exact (State.Keeps.deliver hs).trans (.answer ..)
  · exact .refl s
  · exact .refl s

end State.Keeps

theorem ExchangeUnit.liveHolder_none {u : ExchangeUnit} {xno : Xno} (h : u.liveHolder xno = none) (j : RecIx) :
    (look u.records j).live = false ∨ (look u.records j).xno ≠ xno :=
  (Bool.and_eq_false_iff.1 (firstIx_none.1 h j)).imp id beq_eq_false_iff_ne.1

theorem ExchangeUnit.answeredHolder_none {u : ExchangeUnit} {xno : Xno} (h : u.answeredHolder xno = none) (j : RecIx) :
    (look u.records j).state ≠ .answered ∨ (look u.records j).xno ≠ xno :=
  (Bool.and_eq_false_iff.1 (firstIx_none.1 h j)).imp beq_eq_false_iff_ne.1 beq_eq_false_iff_ne.1

theorem Exchange.free_of_not_live {e : Exchange} (h : e.live = false) (h' : e.state ≠ .answered) : e.state = .free := by
  cases hs : e.state <;> simp_all [Exchange.live]

/-- The acceptance chain: a new exchange takes its xno only where no record holds it, the freed ANSWERED one apart (R20, R21). -/
theorem State.Keeps.exchangeRequest {r : LineRequest} {kind : ExchangeKind} {s : State}
    (hlen : 1 ≤ r.length kind ∧ r.length kind ≤ 240) : s.Keeps (s.exchangeRequest r kind) := by
  unfold State.exchangeRequest
  split
  · exact .meetLive r _ s
  · next hlive =>
    have notLive := ExchangeUnit.liveHolder_none hlive
    split
    · next i hi =>
      obtain ⟨hanswered, hxno⟩ : (s.record i).state = .answered ∧ (s.record i).xno = r.xno := by
        simpa [State.record] using (firstIx_some.1 hi).1
      refine .ite (fun _ => (State.Keeps.replayAnswered hanswered).trans (.answer ..)) fun _ => ?_
      have freed : s.Keeps (s.freeRecord i) := .freeRecord fun _ => by simp [Exchange.inWork, hanswered]
      have clear : XnosOk s.xu → ∀ j, ((s.freeRecord i).record j).state = .free ∨ ((s.freeRecord i).record j).xno ≠ r.xno := by
        intro hx j
        by_cases hj : i = j
        · subst hj
          exact .inl (by rw [State.record_freeRecord_same]; rfl)
        · rw [State.record_freeRecord_other hj]
          rcases notLive j with h | h
          · by_cases ha : (s.record j).state = .answered
            · exact .inr (hxno ▸ (hx i j hj (by simpa [State.record] using hanswered ▸ by simp) (by simpa [State.record] using ha ▸ by simp)).symm)
            · exact .inl (Exchange.free_of_not_live h ha)
          · exact .inr h
      have handled := freed.weaken.trans (.newRequest clear hlen)
      exact { handled with xnos := fun _ h => handled.xnos h h }
    · next hnone =>
      refine .newRequest (fun _ j => ?_) hlen
      rcases notLive j, ExchangeUnit.answeredHolder_none hnone j with ⟨h | h, h' | h'⟩
      · exact .inl (Exchange.free_of_not_live h h')
      · exact .inr h'
      · exact .inr h
      · exact .inr h

end Sys2Proof.Machine
end


section
/-! A RESTART, a write to the management space, and the whole handling of a request keep the laws. -/

namespace Sys2Proof.Machine

/-! ### Every block of the exchanges at its empty state (R17, R176) -/

theorem ownedBy_of_none {u : CompletionUnit} (h : ∀ t, (look u.tags t).state = .busy → (look u.tags t).owner = none) (i : RecIx) :
    u.ownedBy i = 0 := by
  refine List.countP_eq_zero.2 fun t _ => ?_
  by_cases hb : (look u.tags t).state = .busy <;> simp [hb, h]

theorem busyCount_of_none {u : CompletionUnit} (h : ∀ t, (look u.tags t).state ≠ .busy) (n : SlotIx) : u.busyCount n = 0 :=
  List.countP_eq_zero.2 fun t _ => by simp [h t]

theorem restarted_notBusy (u : CompletionUnit) (t : TagIx) : (look u.restarted.tags t).state ≠ .busy := by
  simp only [CompletionUnit.restarted, look_mapIx]
  split
  · simp [Tag.cooled]
  · next h => simpa using h

/-- What a RESTART leaves of CU, as facts about the one unit it leaves. -/
theorem exists_restarted (u : CompletionUnit) :
    ∃ v, u.restarted = v ∧ (TagsOk u → TagsOk v) ∧ ∀ t, (look v.tags t).state ≠ .busy := by
  refine ⟨_, rfl, fun h t => ?_, restarted_notBusy u⟩
  simp only [CompletionUnit.restarted, look_mapIx]
  split
  · exact Tag.cooled_ok { look u.tags t with owner := none }
  · exact h t

/-- With every record FREE, no push queued, no tag BUSY and no result waiting, the laws of XU, PQ and the tags hold. -/
theorem State.Keeps.cleared {s t : State} {cu : CompletionUnit} (hcu : t.cu = cu) (hxu : t.xu = ⟨Vector.replicate 8 Exchange.free, []⟩) (hpq : t.pq = ⟨[]⟩)
    (horder : t.ia.orderList = []) (hbusy : ∀ j, (look cu.tags j).state ≠ .busy) (hresults : t.reports.pieceResults = [])
    (hpending : t.pending = s.pending) (hnotices : NoticesOk s.nu → OverrunOk s.nu → NoticesOk t.nu ∧ OverrunOk t.nu)
    (htags : TagsOk s.cu → TagsOk cu) (hnodes : NodesOk s.tu → NodesOk t.tu)
    (hrel : RelationsOk s.tu → NodesOk s.tu → RelationsOk t.tu) (hbuffers : BuffersOk s.ru → BuffersOk t.ru)
    (hset : SettingsOk s.mu.settings → SettingsOk t.mu.settings) (hline : LineOk s.lp → LineOk t.lp)
    (htimers : LinkTimersOk s → LinkTimersOk t) (hcredits : CreditsOk s → CreditsOk t) (hneg : NegotiationOk s → NegotiationOk t) :
    s.Keeps t where
  pending := hpending
  notices := hnotices
  pushes _ := by rw [hpq]; simp [PushesOk, PushQueue.bytesHeld]
  xnos _ _ := by rw [hxu]; intro i j _ hi; simp [Exchange.free] at hi
  order _ _ := by
    refine ⟨⟨by simp [horder, hpq], fun i => ?_⟩, ?_⟩
    · simp [horder, State.record, hxu, Exchange.free, Exchange.inWork]
    · rw [hxu]; simp [AnswerRanksOk, Exchange.free]
  records _ _ _ i := by rw [hxu, look_replicate]; exact Exchange.free_ok
  outstanding _ _ _ i := by
    rw [hcu, ownedBy_of_none (fun j hj => absurd hj (hbusy j)), hresults]
    simp [State.record, hxu, Exchange.free, Exchange.inWork]
  tags h := hcu ▸ htags h
  busyCounts _ _ n := by rw [hcu, busyCount_of_none hbusy]; exact Nat.zero_le _
  nodes := hnodes
  relations := hrel
  carving _ _ _ _ _ _ := carvingOk_iff.2 fun i => by rw [hxu, look_replicate]; exact Exchange.free_carvingOk
  buffers := hbuffers
  settings := hset
  line := hline
  timers := htimers
  credits := hcredits
  negotiation := hneg

theorem State.restarted_eq (s : State) : s.restarted = { s with
    lp := { s.lp with lastReply := none }
    xu := ⟨Vector.replicate 8 Exchange.free, []⟩
    pq := ⟨[]⟩
    ia := { s.ia with orderList := [] }
    cu := s.cu.restarted
    ru := s.ru.invalidate fun _ => true
    nu := { s.nu with queue := [], overrun := false }
    mu := s.mu.counts .pushBytesCut s.pq.unissuedBytes
    reports := { s.reports with pieceResults := [] } } := rfl

theorem State.Keeps.restarted (s : State) : s.Keeps s.restarted := by
  obtain ⟨cu, hcu, tags, notBusy⟩ := exists_restarted s.cu
  rw [State.restarted_eq]
  exact .cleared (cu := cu) hcu rfl rfl rfl notBusy rfl rfl (fun _ _ => NoticeUnit.emptied_ok s.nu) tags
    (fun h => h) (fun h _ => h) (buffersOk_invalidate _) (fun h => h) (fun h => lineOk_of_same (l := s.lp) rfl (fun hh => hh) h)
    (fun h => h) (fun h => h) (fun h => h)

/-! ### A write to the management space (R166 to R177) -/

namespace State.Keeps

variable {s t : State}

theorem clearCounters (s : State) : s.Keeps (s.onMu fun m => { m with counters := Vector.replicate 13 0 }) := .onMu id

theorem runCommand {code arg : Byte} {d : Deferred} (h : s.runCommand code arg = .ok (t, d)) : s.Keeps t := by
  unfold State.runCommand at h
  split at h
  · cases h; exact .refl _
  · cases h; exact .refl _
  · cases h; exact .clearCounters _
  · split at h
    · next hc => cases h; exact (State.Keeps.clearQuietSlot hc).trans (.arbitrate _)
    · cases h
  · cases h; exact .flushed _
  · cases h; exact .emptied _
  · cases h

theorem writeSettings {place : Nat} {data : List Byte} {d : Deferred} (h : s.writeSettings place data = .ok (t, d)) : s.Keeps t := by
  unfold State.writeSettings at h
  split at h
  · cases h
  · next hgood => cases h; exact .onMu (settingsOk_setRun hgood)

theorem writeSpace {offset : Nat} {data : List Byte} {d : Deferred} (h : s.writeSpace offset data = .ok (t, d)) : s.Keeps t := by
  unfold State.writeSpace at h
  split at h
  · cases h
  · exact .writeSettings h
  · exact .runCommand h
  · split at h
    · next hw => cases h; exact .loadWindows hw
    · cases h
  · split at h
    · next hw => cases h; exact (State.Keeps.loadNodes hw).trans (.arbitrate _)
    · cases h
  all_goals cases h

theorem managementRead (r : LineRequest) (s : State) : s.Keeps (s.managementRead r) := by
  unfold State.managementRead
  split
  · exact .answer ..
  · exact .answerFault ..

theorem managementWrite (r : LineRequest) (s : State) : s.Keeps (s.managementWrite r) := by
  unfold State.managementWrite
  split
  · next hw =>
    exact ((State.Keeps.writeSpace hw).trans (.ite (fun _ => .segmentReset _) fun _ => .refl _)).trans (.answer ..)
  · exact .answerFault ..

/-! ### A push (R69 to R71) -/

theorem queuePush {p : Push} (h1 : 1 ≤ p.length) (h240 : p.length ≤ 240) (hnew : p.issued = 0) (hroom : s.pq.admits p.length = true) :
    s.Keeps { s with pq := ⟨s.pq.pushes ++ [p]⟩, ia := { s.ia with orderList := s.ia.orderList ++ [.push] } } where
  pushes h := by
    obtain ⟨-, -, heach, hstarted⟩ := h
    simp only [PushQueue.admits, Bool.and_eq_true, decide_eq_true_eq] at hroom
    refine ⟨?_, ?_, fun q hq => ?_, fun q hq => ?_⟩
    · rw [List.length_append]
      exact hroom.1
    · rw [PushQueue.bytesHeld_append]
      exact hroom.2
    · rcases List.mem_append.1 hq with hq | hq
      · exact heach q hq
      · rw [List.mem_singleton.1 hq]
        exact ⟨h1, h240, by omega⟩
    · cases hl : s.pq.pushes with
      | nil => simp [hl] at hq
      | cons head rest =>
        simp only [hl, List.cons_append, List.tail_cons, List.mem_append, List.mem_singleton] at hq
        rcases hq with hq | rfl
        · exact hstarted q (by simp [hl, hq])
        · exact hnew
  order ho ha := by
    refine ⟨⟨?_, fun i => ?_⟩, ha⟩
    · simpa using ho.1
    · show (s.ia.orderList ++ [Member.push]).count (Member.exchange i) = _
      rw [List.count_append]
      exact ho.2 i

theorem acceptPush {r : LineRequest} (res : Resolution) (hlen : 1 ≤ r.data.length ∧ r.data.length ≤ 240)
    (hroom : s.pq.admits r.data.length = true) : s.Keeps (s.acceptPush r res) := by
  have queued := (State.Keeps.queuePush (p := ⟨res.window, res.slot, res.addr, r.data, 0, r.broadcast⟩) hlen.1 hlen.2 rfl hroom).trans
    (.writeAccepted res.slot res.addr r.data.length _)
  exact (State.Keeps.ite (fun _ => queued.trans (.testHead _)) fun _ => queued).trans (.arbitrate _)

theorem pushRequest {r : LineRequest} (hlen : 1 ≤ r.data.length ∧ r.data.length ≤ 240) : s.Keeps (s.pushRequest r) := by
  unfold State.pushRequest
  split
  · exact .answerFault ..
  · next res _ =>
    exact .ite (fun hroom => (State.Keeps.answer ..).trans (.acceptPush res hlen hroom)) fun _ => .answerBusy ..

theorem pushBroadcast {r : LineRequest} (hlen : 1 ≤ r.data.length ∧ r.data.length ≤ 240) : s.Keeps (s.pushBroadcast r) := by
  unfold State.pushBroadcast
  split
  · exact .bump ..
  · next res _ => exact .ite (fun hroom => .acceptPush res hlen hroom) fun _ => .bump ..

/-! ### A request handled (R9, R14 to R16) -/

theorem route {r : LineRequest} (hw : r.wellFormed = true) : s.Keeps (s.route r) := by
  unfold State.route
  split
  · next hk => exact .ite (fun _ => .managementRead ..) fun _ => .exchangeRequest (LineRequest.wellFormed_length (.inl ⟨rfl, hk⟩) hw)
  · next hk => exact .ite (fun _ => .managementWrite ..) fun _ => .exchangeRequest (LineRequest.wellFormed_length (.inr ⟨rfl, hk⟩) hw)
  · next hk => exact .ite (fun _ => .answerFault ..) fun _ => .pushRequest (LineRequest.wellFormed_data (.inr hk) hw)
  · exact .pollRequest ..

theorem addressedRequest (r : LineRequest) (s : State) : s.Keeps (s.addressedRequest r) := by
  unfold State.addressedRequest
  split
  · exact .onLp (lineOk_of_same rfl fun _ => rfl)
  · exact .ite (fun hw => .route hw) fun _ => (State.Keeps.answer ..).trans (.bump ..)

theorem broadcastRequest {r : LineRequest} (hk : r.kind = .push) (s : State) : s.Keeps (s.broadcastRequest r) :=
  .ite (fun _ => .bump ..) fun hw => .ite (fun _ => .refl s) fun _ =>
    .pushBroadcast (LineRequest.wellFormed_data (.inr hk) (by simpa using hw))

/-- A broadcast is a PUSH, as LP accepts no other (R6). -/
theorem handleRequest {r : LineRequest} (hk : r.broadcast = true → r.kind = .push) (s : State) : s.Keeps (s.handleRequest r) := by
  unfold State.handleRequest
  split
  · exact .refl s
  · next l hl =>
    exact (State.Keeps.onLp (LinePort.take_lineOk hl)).trans
      (.ite (fun hb => .broadcastRequest (hk hb) _) fun _ => .addressedRequest r _)

/-! ### MU's trunk port (R168) -/

theorem claimCpl (p : Packet) (slot : MgmtIx) (segreset : Bool) (s : State) : s.Keeps (s.claimCpl p slot segreset) := .onIa rfl

theorem afterTrunkWrite (d : Deferred) (s : State) : s.Keeps (s.afterTrunkWrite d) := by
  unfold State.afterTrunkWrite
  split
  · exact .refl s
  · exact .onLp (lineOk_of_same rfl id)
  · exact .restarted s
  · exact .refl s

theorem serve (slot : MgmtIx) (r : MgmtRequest) (s : State) : s.Keeps (s.serve slot r) := by
  refine .ite (fun _ => .claimCpl ..) fun _ => .ite (fun _ => .claimCpl ..) fun _ => ?_
  split
  · split
    · exact .claimCpl ..
    · exact .claimCpl ..
  · split
    · next hw => exact ((State.Keeps.writeSpace hw).trans (.claimCpl ..)).trans (.afterTrunkWrite ..)
    · exact .claimCpl ..

theorem serveNext (s : State) : s.Keeps s.serveNext := by
  unfold State.serveNext
  split
  · exact .refl s
  · next slot rest _ =>
    have taken : s.Keeps (s.onTp fun t => { t with unserved := rest }) := .onTp id id id
    simp only
    split
    · exact taken
    · exact (taken.trans (.serve ..)).trans (.arbitrate _)

theorem writeFrom (origin : WriteOrigin) (offset : BitVec 24) (data : List Byte) (s : State) : s.Keeps (s.writeFrom origin offset data) := by
  unfold State.writeFrom
  split
  · exact .handleRequest (by simp) s
  · exact .ite (fun _ => .serveNext s) fun _ => .refl s

end State.Keeps

end Sys2Proof.Machine
end


section
/-! Every command keeps the laws: the timers, the trunk packets, the reports taken and the resets, and `exec` by its commands. -/

namespace Sys2Proof.Machine

/-! ### Power-on reset (R17) -/

theorem noticesOk_por : NoticesOk ⟨[], 0, false⟩ ∧ OverrunOk ⟨[], 0, false⟩ := NoticeUnit.emptied_ok ⟨[], 0, false⟩

theorem tagsOk_por : TagsOk ⟨Vector.replicate 32 Tag.free⟩ := fun t => by
  rw [look_replicate]
  exact Tag.free_ok

theorem nodesOk_por (windows : Vector Window 16) : NodesOk ⟨windows, Vector.replicate 32 Node.unused⟩ := fun i => by
  rw [look_replicate]
  exact nodeOk_unused

theorem relationsOk_por : RelationsOk ⟨Vector.replicate 16 Window.empty, Vector.replicate 32 Node.unused⟩ := by
  simp [RelationsOk, Window.empty, Node.unused]

theorem buffersOk_por : BuffersOk ⟨Vector.replicate 4 Buffer.invalid, []⟩ := by simp [BuffersOk, Buffer.invalid]

/-- Whatever laws a state met, a state whose blocks but TP and IA are those of POR meets them, if TP's own laws hold in it. -/
theorem State.Keeps.blank {s t : State} (hpending : t.pending = s.pending)
    (hxu : t.xu = ⟨Vector.replicate 8 Exchange.free, []⟩)
    (htu : t.tu = ⟨Vector.replicate 16 Window.empty, Vector.replicate 32 Node.unused⟩) (hpq : t.pq = ⟨[]⟩)
    (hcu : t.cu = ⟨Vector.replicate 32 Tag.free⟩) (hru : t.ru = ⟨Vector.replicate 4 Buffer.invalid, []⟩) (hnu : t.nu = ⟨[], 0, false⟩)
    (horder : t.ia.orderList = []) (hresults : t.reports.pieceResults = []) (hline : t.lp.assembler = .hunt)
    (hset : SettingsOk s.mu.settings → SettingsOk t.mu.settings)
    (htimers : LinkTimersOk t) (hcredits : CreditsOk t) (hneg : NegotiationOk t) : s.Keeps t :=
  .cleared (cu := ⟨Vector.replicate 32 Tag.free⟩) hcu hxu hpq horder (fun j => by simp [Tag.free]) hresults hpending
    (fun _ _ => hnu ▸ noticesOk_por) (fun _ => tagsOk_por) (fun _ => htu ▸ nodesOk_por _) (fun _ _ => htu ▸ relationsOk_por)
    (fun _ => hru ▸ buffersOk_por) hset (fun _ => lineOk_of_hunt hline) (fun _ => htimers) (fun _ => hcredits) (fun _ => hneg)

namespace State.Keeps

variable {s t : State}

theorem powerOn (sta : BitVec 5) (lrate : BitVec 3) (tpermit : Bool) (s : State) : s.Keeps (s.powerOn sta lrate tpermit) := by
  have order := State.enterAwaitRef_orderList (State.por sta lrate tpermit true s.refok s.pending)
  have timers := State.enterAwaitRef_timers (s := State.por sta lrate tpermit true s.refok s.pending) ⟨rfl, rfl, rfl, rfl⟩
  have credits := State.enterAwaitRef_credits (s := State.por sta lrate tpermit true s.refok s.pending) ⟨rfl, rfl, rfl, rfl⟩
  have negotiation := State.enterAwaitRef_negotiation (s := State.por sta lrate tpermit true s.refok s.pending)
    (by simp [State.por])
  refine State.Keeps.trans ?_ (.arbitrate _)
  rw [State.enterAwaitRef_frame] at timers credits negotiation ⊢
  exact .blank rfl rfl rfl rfl rfl rfl rfl order rfl rfl (fun _ => settingsOk_por sta tpermit) timers credits negotiation

theorem heldInReset (s : State) : s.Keeps s.heldInReset := by
  refine .blank rfl rfl rfl rfl rfl rfl rfl rfl rfl rfl (fun h => ?_) ?_ ?_ ?_
  · obtain ⟨-, -, -, -, -, hsta, hpermit, -⟩ := h
    obtain ⟨h1, h2, h3, h4, h5, -, -, h8⟩ := settingsOk_por 0 false
    exact ⟨h1, h2, h3, h4, h5, hsta, hpermit, h8⟩
  · simp [LinkTimersOk, State.heldInReset, State.por]
  · exact fun _ _ => ⟨rfl, rfl, rfl, rfl⟩
  · simp [NegotiationOk, State.heldInReset, State.por]

theorem whenRunning {f : State → State} (h : s.Keeps (f s)) : s.Keeps (s.whenRunning f) := .ite (fun _ => h) fun _ => .refl s

/-! ### Replies (R7, R17) -/

theorem replyEnds (s : State) : s.Keeps s.replyEnds := by
  unfold State.replyEnds
  split
  · next effect hsend =>
    have idle : s.Keeps (s.onLp fun l => { l with transmitter := .idle }) := .onLp (lineOk_of_same rfl fun _ => rfl)
    refine idle.trans ?_
    cases effect with
    | nothing => exact .refl _
    | station => exact .onLp (f := fun l => { l with station := s.mu.settings.station }) (lineOk_of_same rfl fun h => h)
    | restart => exact .restarted _
  · exact .refl s
  · exact .refl s

/-! ### The far end's packets (R146 to R164) -/

theorem receive {p : Packet} {handle : State → State} (h : ∀ u : State, u.Keeps (handle u)) (s : State) : s.Keeps (s.receive p handle) :=
  .ite (fun _ => .refl s) fun _ => .ite (fun _ => .bump ..) fun _ =>
    .ite (fun _ => (State.Keeps.lossRestarts s).trans (.bump ..)) fun _ => (State.Keeps.lossRestarts s).trans (h _)

theorem receiveBad (bytes : List Byte) (s : State) : s.Keeps (s.receiveBad bytes) := .ite (fun _ => .bump ..) fun _ => .refl s

theorem judgeCap (f : CapFields) (hl : s.tp.link = .negotiate) : s.Keeps (s.judgeCap f) :=
  .ite (fun hf => (State.Keeps.onTp id id fun h => ⟨by simpa using hf, h.2⟩).trans (.onIa rfl)) fun _ => .endAttempt hl

theorem takeCap (f : CapFields) (s : State) : s.Keeps (s.takeCap f) := by
  unfold State.takeCap
  split
  · next hl => exact (State.Keeps.judgeCap f hl).trans (.arbitrate _)
  · exact (State.Keeps.fallToAwaitRef .farCap s).trans (.arbitrate _)
  · exact (State.Keeps.fallToAwaitRef .farCap s).trans (.arbitrate _)
  all_goals exact .refl s

/-- The accepted far CAP is acceptable (R152), so that SETTLE takes values in range from it. -/
theorem testComplete (hl : s.tp.link = .negotiate) : s.Keeps s.testComplete := by
  unfold State.testComplete
  split
  · next f hf => exact .ite (fun _ => .enterSettle hl fun h => h.1 f hf) fun _ => .refl s
  · exact .refl s

theorem judgeCapack (f : CapFields) (hl : s.tp.link = .negotiate) : s.Keeps (s.judgeCapack f) :=
  .ite (fun _ => (State.Keeps.onTp id id id).trans (.testComplete hl)) fun _ => .refl s

theorem takeCapack (f : CapFields) (s : State) : s.Keeps (s.takeCapack f) :=
  .ite (fun hl => (State.Keeps.judgeCapack f hl).trans (.arbitrate _)) fun _ => .refl s

theorem takeCredit (request push : Byte) (s : State) : s.Keeps (s.takeCredit request push) :=
  .ite (fun hl => (State.Keeps.onTp id (fun _ hs hu => absurd hl (by simp_all [State.onTp])) id).trans (.arbitrate _)) fun _ => .refl s

theorem takeRequest (r : MgmtRequest) (s : State) : s.Keeps (s.takeRequest r) := by
  unfold State.takeRequest
  split
  · exact .onTp id id id
  · exact .bump ..

theorem takeCompletion (tag : TagIx) (status : Byte) (remaining : BitVec 16) (payload : List Byte) (s : State) :
    s.Keeps (s.takeCompletion tag status remaining payload) := by
  unfold State.takeCompletion
  split
  · next hbusy => exact (State.Keeps.busyCompletion status remaining payload hbusy).trans (.arbitrate _)
  · exact .bump ..
  · exact (State.Keeps.bump ..).trans (.offer ..)

/-! ### The end of a packet (R152, R164, R177) -/

theorem capackGone (p : Packet) (s : State) : s.Keeps (s.capackGone p) := by
  unfold State.capackGone
  split
  · exact .ite (fun hl => (State.Keeps.onTp id id id).trans (.testComplete hl.1)) fun _ => .refl s
  · exact .refl s

theorem slotAnswered (slot : MgmtIx) (s : State) : s.Keeps (s.slotAnswered slot) := (State.Keeps.onTp id id id).trans (.onIa rfl)

theorem packetGone (p : Packet) (effect : PacketEffect) (s : State) : s.Keeps (s.packetGone p effect) := by
  unfold State.packetGone
  split
  · exact .refl s
  · exact .capackGone p s
  · exact .refl s
  · next slot held segreset =>
    have answered : s.Keeps (if held then s.slotAnswered slot else s) := .ite (fun _ => .slotAnswered slot s) fun _ => .refl s
    exact .ite (fun _ => answered.trans (.segmentReset _)) fun _ => answered

theorem packetEnds (s : State) : s.Keeps s.packetEnds := by
  unfold State.packetEnds
  split
  · exact .refl s
  · next packet _ effect _ =>
    have freed : s.Keeps (s.onIa fun a => { a with transmitter := .free }) := .onIa rfl
    exact ((freed.trans (.startIdle _)).trans (.packetGone ..)).trans (.arbitrate _)

/-! ### The timers -/

theorem holdExpires (i : RecIx) (s : State) : s.Keeps (s.holdExpires i) := by
  refine .ite (fun _ => .refl s) fun _ => ?_
  split
  · next hready =>
    have free : s.Keeps (s.freeRecord i) := .freeRecord fun _ => by simp [Exchange.inWork, hready]
    exact (free.trans (.bump ..)).trans (.offer ..)
  · next hanswered => exact .freeRecord fun _ => by simp [Exchange.inWork, hanswered]
  all_goals exact .refl s

theorem completionExpires (tag : TagIx) (s : State) : s.Keeps (s.completionExpires tag) := by
  unfold State.completionExpires
  split
  · next hbusy _ => exact (State.Keeps.pieceTimesOut hbusy).trans (.arbitrate _)
  · exact .refl s

theorem coolDownExpires (tag : TagIx) (s : State) : s.Keeps (s.coolDownExpires tag) := by
  unfold State.coolDownExpires
  split
  · next hcool _ => exact (State.Keeps.coolDown hcool).trans (.arbitrate _)
  · exact .refl s

theorem segmentHoldExpires (s : State) : s.Keeps s.segmentHoldExpires :=
  .ite (fun h => (State.Keeps.leaveIsolated h.1).trans (.arbitrate _)) fun _ => .refl s

theorem attemptExpires (s : State) : s.Keeps s.attemptExpires :=
  .ite (fun h => (State.Keeps.endAttempt h.1).trans (.arbitrate _)) fun _ => .refl s

theorem capIntervalExpires (s : State) : s.Keeps s.capIntervalExpires := by
  refine .ite (fun hl => ?_) fun _ => .refl s
  have restarted : s.Keeps (s.onTp fun t => { t with capInterval := some Config.capIntervalTime }) := by
    refine .onTp (fun h => ?_) id id
    obtain ⟨hhold, hattempt, -, hsettle, hloss⟩ := h
    exact ⟨hhold, hattempt, by simp [State.onTp, hl.1], hsettle, hloss⟩
  exact (restarted.trans (.onIa rfl)).trans (.arbitrate _)

theorem settleExpires (s : State) : s.Keeps s.settleExpires :=
  .ite (fun h => ((State.Keeps.enterUp h.1).trans (.offer ..)).trans (.arbitrate _)) fun _ => .refl s

theorem lossExpires (s : State) : s.Keeps s.lossExpires :=
  .ite (fun _ => (State.Keeps.fallToAwaitRef .loss s).trans (.arbitrate _)) fun _ => .refl s

/-! ### REFOK (R150) -/

/-- A level of REFOK, which rises only where the link does not wait in AWAIT_REF. -/
theorem setRefok {b : Bool} (h : s.resetn = true → b = true → s.tp.link ≠ .awaitRef) : s.Keeps { s with refok := b } :=
  { negotiation := fun hn => ⟨hn.1, hn.2.1, hn.2.2.1, h⟩ }

theorem enterNegotiate (hl : s.tp.link = .awaitRef) : s.Keeps s.enterNegotiate := by
  rw [State.enterNegotiate_eq]
  refine .linkChange (.inl rfl) rfl rfl (fun h => ?_) (fun h _ _ => h (by simp [hl]) (by simp [hl])) fun _ => ?_
  · obtain ⟨hhold, -, -, hsettle, hloss⟩ := h
    simp [hl] at hhold hsettle hloss
    simp [LinkTimersOk, hhold, hsettle, hloss]
  · exact ⟨by simp, by simp, by simp, by simp⟩

theorem refokRise (s : State) : s.Keeps ({ s with refok := true }.whenRunning State.refokRises) := by
  unfold State.whenRunning State.refokRises
  refine .ite (fun _ => .ite (fun hl => ?_) fun hl => .setRefok fun _ _ => hl) fun hr => .setRefok fun hr' => absurd hr' hr
  have risen : s.Keeps { s.enterNegotiate with refok := true } :=
    (State.Keeps.enterNegotiate (s := s) hl).trans (.setRefok fun _ _ => by simp [State.enterNegotiate_eq])
  exact risen.trans (.arbitrate { s.enterNegotiate with refok := true })

theorem refokFalls (s : State) : s.Keeps s.refokFalls := by
  unfold State.refokFalls
  split
  · exact .fallToAwaitRef ..
  · exact .fallToAwaitRef ..
  · exact .fallToAwaitRef ..
  all_goals exact .refl s

theorem refokFall (s : State) : s.Keeps ({ s with refok := false }.whenRunning State.refokFalls) :=
  (State.Keeps.setRefok (by simp)).trans (.whenRunning (.refokFalls _))

/-! ### Reports taken -/

theorem takeOffer (block : NoticeBlock) (s : State) : s.Keeps (s.takeOffer block) := by
  unfold State.takeOffer
  split
  · exact .refl s
  · exact (State.Keeps.onReports rfl).trans (.noticeArrives ..)

theorem pieceSucceeds (i : RecIx) (s : State) : s.Keeps (s.pieceSucceeds i) := by
  unfold State.pieceSucceeds
  split
  · next h => exact .takeSuccess (Reports.nextResult_isSome h)
  all_goals exact .refl s

theorem pieceFails (i : RecIx) (s : State) : s.Keeps (s.pieceFails i) := by
  unfold State.pieceFails
  split
  · next h => exact (State.Keeps.takeFailure _ _ (Reports.nextResult_isSome h)).trans (.arbitrate _)
  all_goals exact .refl s

theorem takeNodeReport {r : NodeReport} {effect : State → State} (slot : SlotIx) (h : ∀ u : State, u.Keeps (effect u)) (s : State) :
    s.Keeps (s.takeNodeReport slot r effect) :=
  .ite (fun _ => (State.Keeps.onReports rfl).trans (h _)) fun _ => .refl s

/-- A step on every record keeps what each of its steps keeps. -/
theorem forRecords {f : RecIx → State → State} (h : ∀ (i : RecIx) (u : State), u.Keeps (f i u)) (s : State) : s.Keeps (s.forRecords f) := by
  have along (l : List RecIx) (u : State) : u.Keeps (l.foldl (fun t i => f i t) u) := by
    induction l generalizing u with
    | nil => exact .refl u
    | cons i l ih => exact (h i u).trans (ih _)
  exact along _ s

theorem quarantineRecord (slot : SlotIx) (i : RecIx) (s : State) : s.Keeps (s.quarantineRecord slot i) :=
  .ite (fun h => .finalise _ _ h.1) fun _ => .refl s

theorem cutRecord (reason : DownReason) (i : RecIx) (s : State) : s.Keeps (s.cutRecord reason i) :=
  .ite (fun h => .finalise _ _ (by simp [Exchange.inWork, h])) fun _ => .refl s

theorem failRecord (i : RecIx) (s : State) : s.Keeps (s.failRecord i) :=
  .ite (fun h => .finalise _ _ (by simp [Exchange.inWork, h])) fun _ => .refl s

theorem quarantineXu (slot : SlotIx) (s : State) : s.Keeps (s.quarantineXu slot) :=
  .ite (fun _ => ((State.Keeps.onReports rfl).trans (.forRecords (.quarantineRecord slot) _)).trans (.arbitrate _)) fun _ => .refl s

theorem quarantinePq (slot : SlotIx) (s : State) : s.Keeps (s.quarantinePq slot) := by
  refine .ite (fun _ => ?_) fun _ => .refl s
  have taken : s.Keeps (s.onReports fun r => { r with quietAtPq := r.quietAtPq.erase slot }) := .onReports rfl
  exact (State.Keeps.ite (fun _ => taken.trans (.testHead _)) fun _ => taken).trans (.arbitrate _)

theorem leftUpXu (s : State) : s.Keeps s.leftUpXu := by
  unfold State.leftUpXu
  split
  · exact .refl s
  · next reason _ _ => exact ((State.Keeps.onReports rfl).trans (.forRecords (.cutRecord reason) _)).trans (.arbitrate _)

theorem leftUpCu (s : State) : s.Keeps s.leftUpCu := by
  unfold State.leftUpCu
  split
  · exact .refl s
  · exact ((State.Keeps.onReports rfl).trans (.cutTags ..)).trans (.arbitrate _)

theorem leftUpPq (s : State) : s.Keeps s.leftUpPq := by
  unfold State.leftUpPq
  split
  · exact .refl s
  · exact ((State.Keeps.onReports rfl).trans (.cutStartedHead _)).trans (.arbitrate _)

theorem leftUpRu (s : State) : s.Keeps s.leftUpRu := by
  unfold State.leftUpRu
  split
  · exact .refl s
  · exact (State.Keeps.onReports rfl).trans (.buffersInvalidated _)

theorem leftUpIa (s : State) : s.Keeps s.leftUpIa := by
  unfold State.leftUpIa
  split
  · exact .refl s
  · exact (State.Keeps.onReports rfl).trans (.onIa rfl)

theorem failedXu (s : State) : s.Keeps s.failedXu := by
  unfold State.failedXu
  split
  · exact .refl s
  · exact ((State.Keeps.onReports rfl).trans (.forRecords .failRecord _)).trans (.arbitrate _)

theorem failedPq (s : State) : s.Keeps s.failedPq := by
  unfold State.failedPq
  split
  · exact .refl s
  · exact ((State.Keeps.onReports rfl).trans (.cutHeads ..)).trans (.arbitrate _)

end State.Keeps

/-! ### Every command -/

/-- Every command answers a next state, and keeps every law. -/
theorem exec_keeps (c : Instr) (s : State) : ∃ t, exec c s = .next t ∧ s.Keeps t := by
  cases c with
  | powerOnReset sta lrate tpermit => exact ⟨_, rfl, .powerOn ..⟩
  | resetnLow => exact ⟨_, rfl, .heldInReset s⟩
  | goodCharacter char => exact ⟨_, rfl, .whenRunning (.hear char s)⟩
  | framingError => exact ⟨_, rfl, .whenRunning (.breakFrame s)⟩
  | lineSilence => exact ⟨_, rfl, .whenRunning (.breakFrame s)⟩
  | lengthAbandon length => exact ⟨_, rfl, .whenRunning (.ite (fun _ => .hear length s) fun _ => .refl s)⟩
  | lineFrame chars => exact ⟨_, rfl, .whenRunning (.hearAll chars s)⟩
  | read xno payload => exact ⟨_, rfl, .whenRunning (.handleRequest (by simp) s)⟩
  | write xno payload => exact ⟨_, rfl, .whenRunning (.handleRequest (by simp) s)⟩
  | push broadcast xno payload => exact ⟨_, rfl, .whenRunning (.handleRequest (by simp) s)⟩
  | poll xno payload => exact ⟨_, rfl, .whenRunning (.handleRequest (by simp) s)⟩
  | turnaround => exact ⟨_, rfl, .whenRunning (.turnaroundEnds s)⟩
  | replyEnd => exact ⟨_, rfl, .whenRunning (.replyEnds s)⟩
  | stationWrite origin value => exact ⟨_, rfl, .whenRunning (.writeFrom ..)⟩
  | settingsWrite origin offset data => exact ⟨_, rfl, .whenRunning (.writeFrom ..)⟩
  | managementWrite origin offset data => exact ⟨_, rfl, .whenRunning (.writeFrom ..)⟩
  | windowImageWrite origin offset data => exact ⟨_, rfl, .whenRunning (.writeFrom ..)⟩
  | nodeImageWrite origin offset data => exact ⟨_, rfl, .whenRunning (.writeFrom ..)⟩
  | restart origin arg => exact ⟨_, rfl, .whenRunning (.writeFrom ..)⟩
  | segreset origin arg => exact ⟨_, rfl, .whenRunning (.writeFrom ..)⟩
  | clearCounters origin arg => exact ⟨_, rfl, .whenRunning (.writeFrom ..)⟩
  | clearQuiet origin arg => exact ⟨_, rfl, .whenRunning (.writeFrom ..)⟩
  | flushRetention origin arg => exact ⟨_, rfl, .whenRunning (.writeFrom ..)⟩
  | dropNotices origin arg => exact ⟨_, rfl, .whenRunning (.writeFrom ..)⟩
  | managementRequestServe => exact ⟨_, rfl, .whenRunning (.serveNext s)⟩
  | holdTimerExpiry record => exact ⟨_, rfl, .whenRunning (.holdExpires record s)⟩
  | completionTimerExpiry tag => exact ⟨_, rfl, .whenRunning (.completionExpires tag s)⟩
  | coolDownExpiry tag => exact ⟨_, rfl, .whenRunning (.coolDownExpires tag s)⟩
  | retentionExpiry buffer => exact ⟨_, rfl, .whenRunning (.onRu (buffersOk_expire buffer))⟩
  | segmentHoldExpiry => exact ⟨_, rfl, .whenRunning (.segmentHoldExpires s)⟩
  | refokRise =>
    show ∃ t, execRefokRise s = .next t ∧ s.Keeps t
    unfold execRefokRise
    split
    · exact ⟨_, rfl, .refl s⟩
    · exact ⟨_, rfl, .refokRise s⟩
  | refokFall =>
    show ∃ t, execRefokFall s = .next t ∧ s.Keeps t
    unfold execRefokFall
    split
    · exact ⟨_, rfl, .refokFall s⟩
    · exact ⟨_, rfl, .refl s⟩
  | attemptTimerExpiry => exact ⟨_, rfl, .whenRunning (.attemptExpires s)⟩
  | capIntervalExpiry => exact ⟨_, rfl, .whenRunning (.capIntervalExpires s)⟩
  | settleTimerExpiry => exact ⟨_, rfl, .whenRunning (.settleExpires s)⟩
  | linkLossTimerExpiry => exact ⟨_, rfl, .whenRunning (.lossExpires s)⟩
  | idleTimerExpiry => exact ⟨_, rfl, .whenRunning (.idleExpires s)⟩
  | trunkPacketEnd => exact ⟨_, rfl, .whenRunning (.packetEnds s)⟩
  | trunkBadPacket bytes => exact ⟨_, rfl, .whenRunning (.receiveBad bytes s)⟩
  | cap fields => exact ⟨_, rfl, .whenRunning (.receive (.takeCap fields) s)⟩
  | capack fields => exact ⟨_, rfl, .whenRunning (.receive (.takeCapack fields) s)⟩
  | credit request push => exact ⟨_, rfl, .whenRunning (.receive (.takeCredit request push) s)⟩
  | keep => exact ⟨_, rfl, .whenRunning (.receive .refl s)⟩
  | incomingManagementRequest tag dest source addr body => exact ⟨_, rfl, .whenRunning (.receive (.takeRequest _) s)⟩
  | psh dest source addr payload => exact ⟨_, rfl, .whenRunning (.receive (.bump .trunkRefusedExtra 1) s)⟩
  | cpl dest tag status remaining payload => exact ⟨_, rfl, .whenRunning (.receive (.takeCompletion tag status remaining payload) s)⟩
  | ntc source dest code arg => exact ⟨_, rfl, .whenRunning (.receive (.noticeArrives source code arg) s)⟩
  | selfNotice block => exact ⟨_, rfl, .whenRunning (.takeOffer block s)⟩
  | pieceSuccess record => exact ⟨_, rfl, .whenRunning (.pieceSucceeds record s)⟩
  | pieceFailure record => exact ⟨_, rfl, .whenRunning (.pieceFails record s)⟩
  | timeoutReport slot => exact ⟨_, rfl, .whenRunning (.takeNodeReport slot (.nodeTimesOut slot) s)⟩
  | successReport slot => exact ⟨_, rfl, .whenRunning (.takeNodeReport slot (.nodeSucceeds slot) s)⟩
  | quarantineAtXu slot => exact ⟨_, rfl, .whenRunning (.quarantineXu slot s)⟩
  | quarantineAtPq slot => exact ⟨_, rfl, .whenRunning (.quarantinePq slot s)⟩
  | quarantineAtIa slot => exact ⟨_, rfl, .whenRunning (.onReports rfl)⟩
  | leavingUpAtXu => exact ⟨_, rfl, .whenRunning (.leftUpXu s)⟩
  | leavingUpAtCu => exact ⟨_, rfl, .whenRunning (.leftUpCu s)⟩
  | leavingUpAtPq => exact ⟨_, rfl, .whenRunning (.leftUpPq s)⟩
  | leavingUpAtRu => exact ⟨_, rfl, .whenRunning (.leftUpRu s)⟩
  | leavingUpAtIa => exact ⟨_, rfl, .whenRunning (.leftUpIa s)⟩
  | failedAtXu => exact ⟨_, rfl, .whenRunning (.failedXu s)⟩
  | failedAtPq => exact ⟨_, rfl, .whenRunning (.failedPq s)⟩

/-- A step keeps every law: on an empty queue nothing changes, and else the command in front is carried out. -/
theorem step_keeps {s t : State} (h : step s = .next t) : ({ s with pending := t.pending } : State).Keeps t := by
  unfold step at h
  split at h
  · cases h; exact .refl s
  · next c rest _ =>
    obtain ⟨u, hu, keeps⟩ := exec_keeps c { s with pending := rest }
    cases hu.symm.trans h
    rwa [show t.pending = rest from keeps.pending]

end Sys2Proof.Machine
end


section
/-! O56's law read off IA's claims: a state rests when its transmitter sends, or there is neither a claim nor an eligible member. An
arbitration leaves a state at rest; the lemmas below say which other changes do. -/

namespace Sys2Proof.Machine

/-- With the transmitter FREE, no claim of the link's state waits and no member is eligible (R85, R90). -/
structure State.Rests (s : State) : Prop where
  idle : s.ia.transmitter = .free →
    (s.tp.link = .negotiate → s.ia.capClaim = false ∧ (s.ia.capackClaim = false ∨ s.tp.farCap = none))
      ∧ (s.tp.link = .up → s.ia.creditClaim = false ∧ s.ia.cplClaims = [] ∧ s.pick = none)

/-- A packet stands in SENDING (R89). -/
def State.Sends (s : State) : Prop := ∃ p rate e, s.ia.transmitter = .sending p rate e

theorem State.Sends.not_free {s : State} (h : s.Sends) : s.ia.transmitter ≠ .free := by
  obtain ⟨p, rate, e, h⟩ := h
  simp [h]

theorem State.Sends.rests {s : State} (h : s.Sends) : s.Rests := ⟨fun hfree => absurd hfree h.not_free⟩

theorem State.rests_of_link {s : State} (h : s.tp.link ≠ .negotiate) (h' : s.tp.link ≠ .up) : s.Rests :=
  ⟨fun _ => ⟨fun hl => absurd hl h, fun hl => absurd hl h'⟩⟩

theorem State.send_sends (p : Packet) (e : PacketEffect) (s : State) : (s.send p e).Sends := ⟨p, s.rateInForce, e, rfl⟩

/-! ### An arbitration sends, or finds nothing to send -/

theorem State.arbitrate_negotiate {s : State} (hfree : s.ia.transmitter = .free) (hl : s.tp.link = .negotiate) :
    s.arbitrate = s.sendNegotiation := by
  simp [State.arbitrate, hfree, hl]

theorem State.arbitrate_up {s : State} (hfree : s.ia.transmitter = .free) (hl : s.tp.link = .up) : s.arbitrate = s.sendWork := by
  simp [State.arbitrate, hfree, hl]

theorem State.sendNegotiation_sends {s : State} (h : ¬(s.ia.capClaim = false ∧ (s.ia.capackClaim = false ∨ s.tp.farCap = none))) :
    s.sendNegotiation.Sends := by
  unfold State.sendNegotiation
  split
  · exact State.send_sends ..
  · next hnone =>
    split
    · exact State.send_sends ..
    · next hcap =>
      refine absurd ⟨by simpa using hcap, ?_⟩ h
      cases hclaim : s.ia.capackClaim with
      | false => exact .inl rfl
      | true =>
        cases hfar : s.tp.farCap with
        | none => exact .inr rfl
        | some f => exact absurd hfar (hnone f hclaim)

theorem State.cutHead_transmitter (s : State) : s.cutHead.ia.transmitter = s.ia.transmitter := by
  unfold State.cutHead
  split <;> simp

theorem State.cutQuietHeads_transmitter (n : Nat) (s : State) : (s.cutQuietHeads n).ia.transmitter = s.ia.transmitter := by
  induction n generalizing s with
  | zero => rfl
  | succ n ih =>
    rw [State.cutQuietHeads]
    split
    · rw [ih, State.cutHead_transmitter]
    · rfl

theorem State.testHead_transmitter (s : State) : s.testHead.ia.transmitter = s.ia.transmitter := State.cutQuietHeads_transmitter _ s

theorem State.issuePush_sends {s : State} (h : s.pq.pushes ≠ []) : s.issuePush.Sends := by
  unfold State.issuePush
  split
  · next hnil => exact absurd hnil h
  · simp only
    split
    · exact ⟨_, _, _, State.testHead_transmitter _⟩
    · exact ⟨_, _, _, rfl⟩

theorem State.issueExchange_sends {s : State} (i : RecIx) (h : s.cu.freeTag.isSome = true) : (s.issueExchange i).Sends := by
  obtain ⟨t, ht⟩ := Option.isSome_iff_exists.1 h
  rw [State.issueExchange_eq ht]
  exact ⟨_, _, _, rfl⟩

theorem State.issueNext_sends {s : State} {v : MemberView} (h : s.pick = some v) : s.issueNext.Sends := by
  simp only [State.issueNext, h]
  cases hm : v.member with
  | exchange i =>
    obtain ⟨-, rfl, hres⟩ := State.pick_exchange h hm
    exact State.issueExchange_sends i (State.resourcesFor_exchange hres).1
  | push => exact State.issuePush_sends (State.pick_push h hm).1

theorem State.sendWork_sends {s : State} (h : ¬(s.ia.creditClaim = false ∧ s.ia.cplClaims = [] ∧ s.pick = none)) : s.sendWork.Sends := by
  unfold State.sendWork
  split
  · exact State.send_sends ..
  · next hcredit =>
    split
    · exact State.send_sends ..
    · next hcpl =>
      cases hp : s.pick with
      | none => exact absurd ⟨by simpa using hcredit, hcpl, hp⟩ h
      | some v => exact State.issueNext_sends hp

/-- A state that does not rest sends at the next arbitration. -/
theorem State.arbitrate_sends {s : State} (h : ¬s.Rests) : s.arbitrate.Sends := by
  obtain ⟨hfree, h⟩ := Classical.not_imp.1 fun idle => h ⟨idle⟩
  by_cases hn : s.tp.link = .negotiate
  · rw [State.arbitrate_negotiate hfree hn]
    exact State.sendNegotiation_sends fun hc => h ⟨fun _ => hc, fun hu => by simp [hn] at hu⟩
  · by_cases hu : s.tp.link = .up
    · rw [State.arbitrate_up hfree hu]
      exact State.sendWork_sends fun hc => h ⟨fun hn' => absurd hn' hn, fun _ => hc⟩
    · exact absurd ⟨fun hn' => absurd hn' hn, fun hu' => absurd hu' hu⟩ h

theorem State.Rests.arbitrate_eq {s : State} (h : s.Rests) : s.arbitrate = s := by
  cases ht : s.ia.transmitter with
  | sending p rate e => exact State.arbitrate_sending ht
  | free => exact State.arbitrate_idle (h.idle ht).2 (h.idle ht).1

theorem nothingWaits_iff {s : State} : NothingWaits s ↔ s.Rests := by
  refine ⟨fun h => ?_, State.Rests.arbitrate_eq⟩
  by_contra hr
  have sends := State.arbitrate_sends hr
  rw [show s.arbitrate = s from h] at sends
  exact hr sends.rests

theorem State.rests_arbitrate (s : State) : s.arbitrate.Rests := by
  by_cases h : s.Rests
  · rwa [h.arbitrate_eq]
  · exact (State.arbitrate_sends h).rests

/-! ### What IA reads (R80, R84) -/

theorem State.judgedLive_iff {s : State} {slot : SlotIx} : s.judgedLive slot = true ↔
    (look s.tu.nodes slot).state = .live ∨ (look s.tu.nodes slot).state = .quiet ∧ slot ∈ s.reports.quietAtIa := by
  unfold State.judgedLive
  cases (look s.tu.nodes slot).state <;> simp

theorem creditAvailable_ne_zero {limit consumed : Byte} : creditAvailable limit consumed ≠ 0 ↔ limit ≠ consumed := by
  unfold creditAvailable
  bv_omega

theorem CompletionUnit.freeTag_isSome {u : CompletionUnit} : u.freeTag.isSome = true ↔ ∃ t, (look u.tags t).state = .free := by
  rw [← not_iff_not, Bool.not_eq_true, Option.isSome_eq_false_iff, Option.isNone_iff_eq_none]
  simp [CompletionUnit.freeTag, firstIx_none]

/-- The conditions 2 to 5 of R84. -/
theorem State.resourcesFor_iff {s : State} {v : MemberView} : s.resourcesFor v = true ↔
    s.tp.link = .up ∧ s.judgedLive v.slot = true
      ∧ (v.kind = .push → s.tp.pushLimit ≠ s.tp.pushConsumed)
      ∧ (v.kind ≠ .push → s.tp.requestLimit ≠ s.tp.requestConsumed ∧ (∃ t, (look s.cu.tags t).state = .free)
        ∧ s.cu.busyCount v.slot < (look s.tu.nodes v.slot).limit.toNat) := by
  have exchange : (s.cu.freeTag.isSome && s.cu.busyCount v.slot < (look s.tu.nodes v.slot).limit.toNat
      && creditAvailable s.tp.requestLimit s.tp.requestConsumed != 0) = true
      ↔ s.tp.requestLimit ≠ s.tp.requestConsumed ∧ (∃ t, (look s.cu.tags t).state = .free)
        ∧ s.cu.busyCount v.slot < (look s.tu.nodes v.slot).limit.toNat := by
    simp only [Bool.and_eq_true, decide_eq_true_eq, bne_iff_ne, CompletionUnit.freeTag_isSome, creditAvailable_ne_zero]
    tauto
  have push : (creditAvailable s.tp.pushLimit s.tp.pushConsumed != 0) = true ↔ s.tp.pushLimit ≠ s.tp.pushConsumed := by
    rw [bne_iff_ne, creditAvailable_ne_zero]
  rw [State.resourcesFor, Bool.and_eq_true, Bool.and_eq_true, beq_iff_eq, and_assoc]
  cases v.kind with
  | push => simp only [push]; simp
  | read => simp only [exchange]; simp
  | write => simp only [exchange]; simp

/-- With fewer resources for the same members, still nothing is picked. -/
theorem State.pick_none_mono {s t : State} (hm : t.members = s.members) (hres : ∀ v, t.resourcesFor v = true → s.resourcesFor v = true)
    (h : s.pick = none) : t.pick = none := by
  have from_ (earlier l : List MemberView) (hnone : s.pickFrom earlier l = none) : t.pickFrom earlier l = none := by
    induction l generalizing earlier with
    | nil => rfl
    | cons v vs ih =>
      rw [State.pickFrom] at hnone ⊢
      split at hnone
      · simp at hnone
      · next hv =>
        rw [if_neg fun ht => hv (by simp only [Bool.and_eq_true] at ht ⊢; exact ⟨ht.1, hres v ht.2⟩)]
        exact ih _ hnone
  unfold State.pick at h ⊢
  rw [hm]
  exact from_ _ _ h

/-- The members read the same where the records of the exchanges in the Order List do. -/
theorem memberViews_congr {records records' : Vector Exchange 8} {order : List Member} (pushes : List Push)
    (h : ∀ i, .exchange i ∈ order → exchangeView i (look records' i) = exchangeView i (look records i)) :
    memberViews records' order pushes = memberViews records order pushes := by
  induction order generalizing pushes with
  | nil => rfl
  | cons m order ih =>
    have rest (ps : List Push) := ih ps fun i hi => h i (by simp [hi])
    cases m with
    | exchange i => simp only [memberViews, rest, h i (by simp)]
    | push =>
      cases pushes with
      | nil => simp only [memberViews, rest]
      | cons p ps => simp only [memberViews, rest]

namespace State.Rests

variable {s t : State}

/-- The one rule of rest: the same claims, the same members, and no more resources. -/
theorem mono (h : s.Rests) (hia : t.ia = s.ia) (hlink : t.tp.link = s.tp.link) (hfar : t.tp.farCap = s.tp.farCap)
    (hm : t.members = s.members) (hres : ∀ v, t.resourcesFor v = true → s.resourcesFor v = true) : t.Rests := by
  refine ⟨?_⟩
  rw [hia, hlink, hfar]
  intro hfree
  obtain ⟨hnegotiate, hup⟩ := h.idle hfree
  exact ⟨hnegotiate, fun hu => (hup hu).imp id fun ⟨hcpl, hpick⟩ => ⟨hcpl, State.pick_none_mono hm hres hpick⟩⟩

/-- A change of blocks that IA does not read. -/
theorem same (h : s.Rests) (hxu : t.xu = s.xu) (htu : t.tu.nodes = s.tu.nodes) (hpq : t.pq = s.pq) (hia : t.ia = s.ia) (hcu : t.cu = s.cu)
    (htp : t.tp = s.tp) (hquiet : t.reports.quietAtIa = s.reports.quietAtIa) : t.Rests := by
  refine h.mono hia (by rw [htp]) (by rw [htp]) (by rw [State.members, State.members, hxu, hia, hpq]) fun v hv => ?_
  rw [State.resourcesFor_iff, State.judgedLive_iff] at hv ⊢
  simpa only [htp, htu, hquiet, hcu] using hv

theorem onLp (h : s.Rests) (f : LinePort → LinePort) : (s.onLp f).Rests := h.same rfl rfl rfl rfl rfl rfl rfl
theorem onRu (h : s.Rests) (f : RetentionUnit → RetentionUnit) : (s.onRu f).Rests := h.same rfl rfl rfl rfl rfl rfl rfl
theorem onNu (h : s.Rests) (f : NoticeUnit → NoticeUnit) : (s.onNu f).Rests := h.same rfl rfl rfl rfl rfl rfl rfl
theorem onMu (h : s.Rests) (f : ManagementUnit → ManagementUnit) : (s.onMu f).Rests := h.same rfl rfl rfl rfl rfl rfl rfl
theorem bump (h : s.Rests) (c : Counter) (n : Nat) : (s.bump c n).Rests := h.onMu _

theorem offer (h : s.Rests) (c : NoticeCode) (n : Nat) : (s.offer c n).Rests := by
  unfold State.offer
  split
  · exact h.same rfl rfl rfl rfl rfl rfl rfl
  · exact h

theorem answer (h : s.Rests) (r : LineRequest) (kind : ReplyKind) (payload : List Byte) (stored : Bool) (effect : ReplyEffect) :
    (s.answer r kind payload stored effect).Rests := h.onLp _

/-- A change of the part of TP that IA does not read. -/
theorem onTp (h : s.Rests) {f : TrunkPort → TrunkPort} (hlink : (f s.tp).link = s.tp.link) (hfar : (f s.tp).farCap = s.tp.farCap)
    (hrequest : (f s.tp).requestLimit = s.tp.requestLimit ∧ (f s.tp).requestConsumed = s.tp.requestConsumed)
    (hpush : (f s.tp).pushLimit = s.tp.pushLimit ∧ (f s.tp).pushConsumed = s.tp.pushConsumed) : (s.onTp f).Rests := by
  refine h.mono rfl hlink hfar rfl fun v hv => ?_
  rw [State.resourcesFor_iff, State.judgedLive_iff] at hv ⊢
  simpa only [State.onTp, hlink, hrequest.1, hrequest.2, hpush.1, hpush.2] using hv

/-- A change of records that reads the same for the members. -/
theorem onRecords (h : s.Rests) {u : ExchangeUnit} (hview : ∀ i, .exchange i ∈ s.ia.orderList →
    exchangeView i (look u.records i) = exchangeView i (s.record i)) : ({ s with xu := u } : State).Rests :=
  h.mono rfl rfl rfl (memberViews_congr _ hview) fun _ hv => hv

/-- A record that is in no member changes. -/
theorem setRecord (h : s.Rests) {i : RecIx} {e : Exchange} {order : List RecIx}
    (hi : .exchange i ∈ s.ia.orderList → exchangeView i e = exchangeView i (s.record i)) :
    ({ s with xu := ⟨put s.xu.records i e, order⟩ } : State).Rests := by
  refine h.onRecords fun j hj => ?_
  by_cases hij : i = j
  · subst hij
    rw [look_put_same, hi hj]
  · rw [look_put_other _ _ hij]
    rfl

theorem relabel (h : s.Rests) {u : ExchangeUnit} (hsame : ∀ i, (s.record i).SameWork (look u.records i)) :
    ({ s with xu := u } : State).Rests :=
  h.onRecords fun i _ => (hsame i).view i

end State.Rests

end Sys2Proof.Machine
end


section
/-! Every command leaves a state that rests (O56): it ends with an arbitration, or what it changes raises nothing that could be sent. -/

namespace Sys2Proof.Machine

namespace State.Rests

variable {s t : State}

theorem ite {c : Prop} [Decidable c] (h₁ : c → s.Rests) (h₂ : ¬c → t.Rests) : (if c then s else t).Rests := by
  split
  · next h => exact h₁ h
  · next h => exact h₂ h

/-! ### The line (R3 to R17) -/

theorem frameLost (h : s.Rests) : s.frameLost.Rests := (h.onLp _).bump ..

theorem breakFrame (h : s.Rests) : s.breakFrame.Rests := by
  unfold State.breakFrame
  split
  · split
    · exact h
    · exact h.frameLost
  · exact h

theorem frameEnds (h : s.Rests) (bytes : List Byte) : (s.frameEnds bytes).Rests := .ite (fun _ => h.onLp _) fun _ => h.frameLost

theorem gather (h : s.Rests) (bytes : List Byte) : (s.gather bytes).Rests :=
  .ite (fun _ => h.frameLost) fun _ => .ite (fun _ => h.frameEnds bytes) fun _ => h.onLp _

theorem hear (h : s.Rests) (b : Byte) : (s.hear b).Rests := by
  unfold State.hear
  split
  · split
    · exact .ite (fun _ => h.onLp _) fun _ => h
    · exact h.gather _
  · exact h

theorem hearAll (h : s.Rests) (chars : List Byte) : (chars.foldl (fun u b => u.hear b) s).Rests := by
  induction chars generalizing s with
  | nil => exact h
  | cons b chars ih => exact ih (h.hear b)

theorem turnaroundEnds (h : s.Rests) : s.turnaroundEnds.Rests := by
  unfold State.turnaroundEnds
  split
  · exact h.breakFrame.onLp _
  all_goals exact h

/-- A RESTART empties the Order List, and leaves the claims. -/
theorem restarted (h : s.Rests) : s.restarted.Rests := by
  refine ⟨fun hfree => ?_⟩
  obtain ⟨hnegotiate, hup⟩ := h.idle hfree
  refine ⟨hnegotiate, fun hl => ⟨(hup hl).1, (hup hl).2.1, ?_⟩⟩
  have empty : s.restarted.members = [] := rfl
  rw [State.pick, empty, State.pickFrom]

theorem replyEnds (h : s.Rests) : s.replyEnds.Rests := by
  unfold State.replyEnds
  split
  · next effect _ =>
    have idle := h.onLp fun l => { l with transmitter := .idle }
    cases effect with
    | nothing => exact idle
    | station => exact idle.onLp fun l => { l with station := s.mu.settings.station }
    | restart => exact idle.restarted
  all_goals exact h

/-! ### Records (R18 to R31) -/

/-- A record that is not in the Order List is freed. -/
theorem freeRecord (h : s.Rests) (ho : OrderListOk s) {i : RecIx} (hi : (s.record i).inWork = false) : (s.freeRecord i).Rests :=
  h.setRecord fun hm => by simp [(ho.waits hm).1] at hi

theorem deliver (h : s.Rests) (i : RecIx) : (s.deliver i).Rests := h.setRecord fun _ => rfl

theorem replayAnswered (h : s.Rests) (i : RecIx) : (s.replayAnswered i).Rests := h.setRecord fun _ => rfl

theorem examine (h : s.Rests) (i : RecIx) : (s.examine i).Rests := by
  rw [State.examine_eq]
  refine State.Rests.onRu (s := { s with xu := _ }) (h.setRecord fun _ => ?_) fun _ => (s.examine i).ru
  unfold Exchange.settled
  split <;> rfl

theorem takeSuccess (h : s.Rests) (i : RecIx) : ((s.resultTaken i).takeSuccess i).Rests := by
  rw [State.takeSuccess_eq]
  refine State.Rests.examine ?_ i
  have fewer := h.setRecord (i := i) (e := { s.record i with outstanding := (s.record i).outstanding - 1 })
    (order := s.xu.answerOrder) fun _ => rfl
  exact fewer.same rfl rfl rfl rfl rfl rfl rfl

theorem holdExpires (h : s.Rests) (ho : OrderListOk s) (i : RecIx) : (s.holdExpires i).Rests := by
  refine .ite (fun _ => h) fun _ => ?_
  split
  · next hready => exact ((h.freeRecord ho (by simp [Exchange.inWork, hready])).bump ..).offer ..
  · next hanswered => exact h.freeRecord ho (by simp [Exchange.inWork, hanswered])
  all_goals exact h

/-! ### The management space (R166 to R179) -/

theorem void (h : s.Rests) (p : Exchange → Bool) : (s.onXu (·.void p)).Rests := h.relabel (ExchangeUnit.void_sameWork p s.xu)

theorem flushed (h : s.Rests) : s.flushed.Rests := (h.onRu _).void _

theorem loadWindow (h : s.Rests) (i : WinIx) (image : List Byte) : (s.loadWindow i image).Rests := by
  have windows : (s.onTu fun u => { u with windows := put u.windows i (acceptedWindow image) }).Rests := h.same rfl rfl rfl rfl rfl rfl rfl
  exact (windows.onRu _).void _

theorem loadWindows (hr : s.Rests) {n : Nat} {images : List (List Byte)} (h : State.loadWindows n images s = .ok t) : t.Rests := by
  induction images generalizing n s with
  | nil => cases h; exact hr
  | cons image images ih =>
    rw [State.loadWindows] at h
    split at h
    · split at h
      · cases h
      · exact ih (hr.loadWindow _ _) h
    · cases h; exact hr

/-- A write to the space leaves a state at rest: a command or a node image that raises the members' chances is followed by an arbitration. -/
theorem writeSpace (hr : s.Rests) {offset : Nat} {data : List Byte} {d : Deferred} (h : s.writeSpace offset data = .ok (t, d)) : t.Rests := by
  unfold State.writeSpace at h
  split at h
  · cases h
  · unfold State.writeSettings at h
    split at h
    · cases h
    · cases h; exact hr.onMu _
  · unfold State.runCommand at h
    split at h
    · cases h; exact hr
    · cases h; exact hr
    · cases h; exact hr.onMu _
    · split at h
      · cases h; exact State.rests_arbitrate _
      · cases h
    · cases h; exact hr.flushed
    · cases h; exact hr.onNu _
    · cases h
  · split at h
    · next hw => cases h; exact hr.loadWindows hw
    · cases h
  · split at h
    · cases h; exact State.rests_arbitrate _
    · cases h
  all_goals cases h

theorem segmentReset (s : State) : s.segmentReset.Rests := by
  rw [State.segmentReset_eq]
  exact State.rests_of_link (by simp) (by simp)

/-! ### Requests (R9 to R27, R69 to R71, R138, R167) -/

theorem managementRead (h : s.Rests) (r : LineRequest) : (s.managementRead r).Rests := by
  unfold State.managementRead
  split
  · exact h.answer ..
  · exact h.answer ..

theorem managementWrite (h : s.Rests) (r : LineRequest) : (s.managementWrite r).Rests := by
  unfold State.managementWrite
  split
  · next hw => exact (State.Rests.ite (fun _ => .segmentReset _) fun _ => h.writeSpace hw).answer ..
  · exact h.answer ..

theorem answerBusy (h : s.Rests) (r : LineRequest) (code : Byte) : (s.answerBusy r code).Rests := (h.answer ..).bump ..

theorem meetLive (h : s.Rests) (r : LineRequest) (i : RecIx) : (s.meetLive r i).Rests := by
  refine .ite (fun _ => ?_) fun _ => h.answer ..
  split
  · exact h.answer ..
  · exact h.answer ..
  · exact (h.deliver i).answer ..
  all_goals exact h

theorem newRequest (h : s.Rests) (r : LineRequest) (kind : ExchangeKind) : (s.newRequest r kind).Rests := by
  unfold State.newRequest
  split
  · exact h.answer ..
  · split
    · exact (h.onRu _).answer ..
    · unfold State.allocate
      split
      · exact State.rests_arbitrate _
      · exact h.answerBusy ..

theorem exchangeRequest (h : s.Rests) (ho : OrderListOk s) (r : LineRequest) (kind : ExchangeKind) : (s.exchangeRequest r kind).Rests := by
  unfold State.exchangeRequest
  split
  · exact h.meetLive ..
  · split
    · next i hanswered =>
      have answered : (s.record i).state = .answered := by
        have found := (firstIx_some.1 hanswered).1
        simp only [Bool.and_eq_true, beq_iff_eq] at found
        exact found.1
      exact .ite (fun _ => (h.replayAnswered i).answer ..) fun _ => (h.freeRecord ho (by simp [Exchange.inWork, answered])).newRequest ..
    · exact h.newRequest ..

theorem pushRequest (h : s.Rests) (r : LineRequest) : (s.pushRequest r).Rests := by
  unfold State.pushRequest
  split
  · exact h.answer ..
  · exact .ite (fun _ => State.rests_arbitrate _) fun _ => h.answerBusy ..

theorem pushBroadcast (h : s.Rests) (r : LineRequest) : (s.pushBroadcast r).Rests := by
  unfold State.pushBroadcast
  split
  · exact h.bump ..
  · exact .ite (fun _ => State.rests_arbitrate _) fun _ => h.bump ..

theorem route (h : s.Rests) (ho : OrderListOk s) (r : LineRequest) : (s.route r).Rests := by
  unfold State.route
  split
  · exact .ite (fun _ => h.managementRead r) fun _ => h.exchangeRequest ho ..
  · exact .ite (fun _ => h.managementWrite r) fun _ => h.exchangeRequest ho ..
  · exact .ite (fun _ => h.answer ..) fun _ => h.pushRequest r
  · exact (h.onNu _).answer ..

theorem addressedRequest (h : s.Rests) (ho : OrderListOk s) (r : LineRequest) : (s.addressedRequest r).Rests := by
  unfold State.addressedRequest
  split
  · exact h.onLp _
  · exact .ite (fun _ => h.route ho r) fun _ => (h.answer ..).bump ..

theorem handleRequest (h : s.Rests) (ho : OrderListOk s) (r : LineRequest) : (s.handleRequest r).Rests := by
  unfold State.handleRequest
  split
  · exact h
  · next l _ =>
    have taken := h.onLp fun _ => l
    exact .ite (fun _ => .ite (fun _ => taken.bump ..) fun _ => .ite (fun _ => taken) fun _ => taken.pushBroadcast r)
      fun _ => taken.addressedRequest ho r

theorem serveNext (h : s.Rests) : s.serveNext.Rests := by
  unfold State.serveNext
  split
  · exact h
  · simp only
    split
    · exact h.onTp rfl rfl ⟨rfl, rfl⟩ ⟨rfl, rfl⟩
    · exact State.rests_arbitrate _

theorem writeFrom (h : s.Rests) (ho : OrderListOk s) (origin : WriteOrigin) (offset : BitVec 24) (data : List Byte) :
    (s.writeFrom origin offset data).Rests := by
  unfold State.writeFrom
  split
  · exact h.handleRequest ho _
  · exact .ite (fun _ => h.serveNext) fun _ => h

/-! ### The trunk (R146 to R164) -/

theorem lossRestarts (h : s.Rests) : s.lossRestarts.Rests := .ite (fun _ => h.onTp rfl rfl ⟨rfl, rfl⟩ ⟨rfl, rfl⟩) fun _ => h

theorem receive {p : Packet} {handle : State → State} (h : s.Rests) (hh : ∀ {u : State}, u.Rests → (handle u).Rests) :
    (s.receive p handle).Rests :=
  .ite (fun _ => h) fun _ => .ite (fun _ => h.bump ..) fun _ => .ite (fun _ => h.lossRestarts.bump ..) fun _ => hh h.lossRestarts

theorem noticeArrives (h : s.Rests) (source : NodeId) (code : BitVec 16) (arg : BitVec 32) : (s.noticeArrives source code arg).Rests := by
  rw [State.noticeArrives_frame]
  exact h.same rfl rfl rfl rfl rfl rfl rfl

theorem takeCap (h : s.Rests) (f : CapFields) : (s.takeCap f).Rests := by
  unfold State.takeCap
  split
  · exact State.rests_arbitrate _
  · exact State.rests_arbitrate _
  · exact State.rests_arbitrate _
  all_goals exact h

theorem takeRequest (h : s.Rests) (r : MgmtRequest) : (s.takeRequest r).Rests := by
  unfold State.takeRequest
  split
  · exact h.onTp rfl rfl ⟨rfl, rfl⟩ ⟨rfl, rfl⟩
  · exact h.bump ..

theorem takeCompletion (h : s.Rests) (tag : TagIx) (status : Byte) (remaining : BitVec 16) (payload : List Byte) :
    (s.takeCompletion tag status remaining payload).Rests := by
  unfold State.takeCompletion
  split
  · exact State.rests_arbitrate _
  · exact h.bump ..
  · exact (h.bump ..).offer ..

theorem packetEnds (h : s.Rests) : s.packetEnds.Rests := by
  unfold State.packetEnds
  split
  · exact h
  · exact State.rests_arbitrate _

/-! ### The timers and REFOK -/

theorem completionExpires (h : s.Rests) (tag : TagIx) : (s.completionExpires tag).Rests := by
  unfold State.completionExpires
  split
  · exact State.rests_arbitrate _
  · exact h

theorem coolDownExpires (h : s.Rests) (tag : TagIx) : (s.coolDownExpires tag).Rests := by
  unfold State.coolDownExpires
  split
  · exact State.rests_arbitrate _
  · exact h

/-- The KEEP goes out after an arbitration, and stands in SENDING. -/
theorem idleExpires (h : s.Rests) : s.idleExpires.Rests :=
  .ite (fun _ => h) fun _ => .ite (fun _ => (State.send_sends ..).rests) fun _ => State.rests_arbitrate _

theorem refokRise (h : s.Rests) : ({ s with refok := true }.whenRunning State.refokRises).Rests := by
  have level : ({ s with refok := true } : State).Rests := h.same rfl rfl rfl rfl rfl rfl rfl
  exact .ite (fun _ => .ite (fun _ => State.rests_arbitrate _) fun _ => level) fun _ => level

/-- With REFOK low the link waits in AWAIT_REF. -/
theorem enterAwaitRef {s : State} (hlow : s.refok = false) : s.enterAwaitRef.Rests := by
  rw [State.enterAwaitRef_low hlow]
  exact State.rests_of_link (by simp) (by simp)

theorem refokFall (h : s.Rests) : ({ s with refok := false }.whenRunning State.refokFalls).Rests := by
  have level : ({ s with refok := false } : State).Rests := h.same rfl rfl rfl rfl rfl rfl rfl
  refine .ite (fun _ => ?_) fun _ => level
  unfold State.refokFalls
  split
  · exact .enterAwaitRef (State.leaveLink_kept .refokFell { s with refok := false }).1
  · exact .enterAwaitRef (State.leaveLink_kept .refokFell { s with refok := false }).1
  · exact .enterAwaitRef (State.leaveLink_kept .refokFell { s with refok := false }).1
  all_goals exact level

/-! ### Reports taken -/

/-- A node slot is counted, or becomes QUIET: IA judges it as before until it takes the report (R61; log 12). -/
theorem setNode (h : s.Rests) {i : SlotIx} {n : Node} (hlimit : n.limit = (look s.tu.nodes i).limit) {quiet : List SlotIx}
    {reports : Reports} (hquiet : reports.quietAtIa = s.reports.quietAtIa ++ quiet)
    (hstate : n.state = (look s.tu.nodes i).state ∧ quiet = []
      ∨ (look s.tu.nodes i).state = .live ∧ quiet = [i]) :
    ({ s with tu := { s.tu with nodes := put s.tu.nodes i n }, reports := reports } : State).Rests := by
  refine h.mono rfl rfl rfl rfl fun v hv => ?_
  rw [State.resourcesFor_iff, State.judgedLive_iff] at hv ⊢
  obtain ⟨hlink, hlive, hpush, hwork⟩ := hv
  simp only [hquiet, List.mem_append] at hlive
  by_cases hi : i = v.slot
  · subst hi
    rw [look_put_same] at hlive hwork
    rw [hlimit] at hwork
    refine ⟨hlink, ?_, hpush, hwork⟩
    rcases hstate with ⟨hn, rfl⟩ | ⟨hlive', -⟩
    · simpa [hn] using hlive
    · exact .inl hlive'
  · rw [look_put_other _ _ hi] at hlive hwork
    refine ⟨hlink, ?_, hpush, hwork⟩
    rcases hstate with ⟨-, rfl⟩ | ⟨-, rfl⟩
    · simpa using hlive
    · simpa [Ne.symm hi] using hlive

theorem takeNodeReport (h : s.Rests) (slot : SlotIx) (r : NodeReport) {effect : State → State} (he : ∀ {u : State}, u.Rests → (effect u).Rests) :
    (s.takeNodeReport slot r effect).Rests :=
  .ite (fun _ => he (h.same rfl rfl rfl rfl rfl rfl rfl)) fun _ => h

theorem nodeSucceeds (h : s.Rests) (i : SlotIx) : (s.nodeSucceeds i).Rests :=
  h.setNode (i := i) (n := { look s.tu.nodes i with count := 0 }) rfl (quiet := []) (List.append_nil _).symm (.inl ⟨rfl, rfl⟩)

theorem nodeTimesOut (h : s.Rests) (i : SlotIx) : (s.nodeTimesOut i).Rests := by
  refine .ite (fun _ => h) fun _ => .ite (fun hover => ?_) fun _ =>
    h.setNode (i := i) (n := (look s.tu.nodes i).timedOut) rfl (quiet := []) (List.append_nil _).symm (.inl ⟨rfl, rfl⟩)
  have live : (look s.tu.nodes i).state = .live := by
    simp only [Node.overThreshold, Bool.and_eq_true, beq_iff_eq] at hover
    exact hover.1.1
  have quiet := (h.setNode (i := i) (n := { (look s.tu.nodes i).timedOut with state := .quiet }) rfl (quiet := [i])
    (reports := { s.reports with
      quietAtXu := s.reports.quietAtXu ++ [i], quietAtPq := s.reports.quietAtPq ++ [i], quietAtIa := s.reports.quietAtIa ++ [i] })
    rfl (.inr ⟨live, rfl⟩)).offer .nodeQuiet (look s.tu.nodes i).nodeId.toNat
  simpa [State.quarantine, State.setNode, State.onTu, State.onReports, Node.timedOut] using quiet

theorem takeOffer (h : s.Rests) (block : NoticeBlock) : (s.takeOffer block).Rests := by
  unfold State.takeOffer
  split
  · exact h
  · refine State.Rests.noticeArrives ?_ ..
    exact h.same rfl rfl rfl rfl rfl rfl rfl

theorem pieceSucceeds (h : s.Rests) (i : RecIx) : (s.pieceSucceeds i).Rests := by
  unfold State.pieceSucceeds
  split
  · exact h.takeSuccess i
  all_goals exact h

theorem pieceFails (h : s.Rests) (i : RecIx) : (s.pieceFails i).Rests := by
  unfold State.pieceFails
  split
  · exact State.rests_arbitrate _
  all_goals exact h

/-- IA takes the report: it judges no slot LIVE that it did not. -/
theorem quarantineIa (h : s.Rests) (slot : SlotIx) : (s.quarantineIa slot).Rests := by
  refine h.mono rfl rfl rfl rfl fun v hv => ?_
  rw [State.resourcesFor_iff, State.judgedLive_iff] at hv ⊢
  obtain ⟨hlink, hlive, hcredit⟩ := hv
  exact ⟨hlink, hlive.imp id fun ⟨hq, hm⟩ => ⟨hq, (List.mem_filter.1 hm).1⟩, hcredit⟩

theorem leftUpXu (h : s.Rests) : s.leftUpXu.Rests := by
  unfold State.leftUpXu
  split
  · exact h
  · exact State.rests_arbitrate _

theorem leftUpCu (h : s.Rests) : s.leftUpCu.Rests := by
  unfold State.leftUpCu
  split
  · exact h
  · exact State.rests_arbitrate _

theorem leftUpPq (h : s.Rests) : s.leftUpPq.Rests := by
  unfold State.leftUpPq
  split
  · exact h
  · exact State.rests_arbitrate _

theorem leftUpRu (h : s.Rests) : s.leftUpRu.Rests := by
  unfold State.leftUpRu
  split
  · exact h
  · exact h.same rfl rfl rfl rfl rfl rfl rfl

/-- IA withdraws claims. -/
theorem leftUpIa (h : s.Rests) : s.leftUpIa.Rests := by
  unfold State.leftUpIa
  split
  · exact h
  · refine ⟨fun hfree => ?_⟩
    obtain ⟨hnegotiate, hup⟩ := h.idle hfree
    exact ⟨hnegotiate, fun hl => ⟨rfl, rfl, State.pick_none_mono (s := s) rfl (fun _ hv => hv) (hup hl).2.2⟩⟩

theorem failedXu (h : s.Rests) : s.failedXu.Rests := by
  unfold State.failedXu
  split
  · exact h
  · exact State.rests_arbitrate _

theorem failedPq (h : s.Rests) : s.failedPq.Rests := by
  unfold State.failedPq
  split
  · exact h
  · exact State.rests_arbitrate _

theorem whenRunning {f : State → State} (h : s.Rests) (hf : (f s).Rests) : (s.whenRunning f).Rests := .ite (fun _ => hf) fun _ => h

end State.Rests

/-! ### Every command -/

theorem State.rests_powerOn (sta : BitVec 5) (lrate : BitVec 3) (tpermit : Bool) (s : State) : (s.powerOn sta lrate tpermit).Rests :=
  State.rests_arbitrate _

/-- Every command leaves at rest a state that rests. -/
theorem exec_rests {c : Instr} {s t : State} (h : s.Rests) (ho : OrderListOk s) (hexec : exec c s = .next t) : t.Rests := by
  cases c with
  | powerOnReset sta lrate tpermit => cases hexec; exact State.rests_powerOn ..
  | resetnLow => cases hexec; exact State.rests_of_link (by simp [State.heldInReset, State.por]) (by simp [State.heldInReset, State.por])
  | goodCharacter char => cases hexec; exact h.whenRunning (h.hear char)
  | framingError => cases hexec; exact h.whenRunning h.breakFrame
  | lineSilence => cases hexec; exact h.whenRunning h.breakFrame
  | lengthAbandon length => cases hexec; exact h.whenRunning (.ite (fun _ => h.hear length) fun _ => h)
  | lineFrame chars => cases hexec; exact h.whenRunning (h.hearAll chars)
  | read xno payload => cases hexec; exact h.whenRunning (h.handleRequest ho _)
  | write xno payload => cases hexec; exact h.whenRunning (h.handleRequest ho _)
  | push broadcast xno payload => cases hexec; exact h.whenRunning (h.handleRequest ho _)
  | poll xno payload => cases hexec; exact h.whenRunning (h.handleRequest ho _)
  | turnaround => cases hexec; exact h.whenRunning h.turnaroundEnds
  | replyEnd => cases hexec; exact h.whenRunning h.replyEnds
  | stationWrite origin value => cases hexec; exact h.whenRunning (h.writeFrom ho ..)
  | settingsWrite origin offset data => cases hexec; exact h.whenRunning (h.writeFrom ho ..)
  | managementWrite origin offset data => cases hexec; exact h.whenRunning (h.writeFrom ho ..)
  | windowImageWrite origin offset data => cases hexec; exact h.whenRunning (h.writeFrom ho ..)
  | nodeImageWrite origin offset data => cases hexec; exact h.whenRunning (h.writeFrom ho ..)
  | restart origin arg => cases hexec; exact h.whenRunning (h.writeFrom ho ..)
  | segreset origin arg => cases hexec; exact h.whenRunning (h.writeFrom ho ..)
  | clearCounters origin arg => cases hexec; exact h.whenRunning (h.writeFrom ho ..)
  | clearQuiet origin arg => cases hexec; exact h.whenRunning (h.writeFrom ho ..)
  | flushRetention origin arg => cases hexec; exact h.whenRunning (h.writeFrom ho ..)
  | dropNotices origin arg => cases hexec; exact h.whenRunning (h.writeFrom ho ..)
  | managementRequestServe => cases hexec; exact h.whenRunning h.serveNext
  | holdTimerExpiry record => cases hexec; exact h.whenRunning (h.holdExpires ho record)
  | completionTimerExpiry tag => cases hexec; exact h.whenRunning (h.completionExpires tag)
  | coolDownExpiry tag => cases hexec; exact h.whenRunning (h.coolDownExpires tag)
  | retentionExpiry buffer => cases hexec; exact h.whenRunning (h.onRu _)
  | segmentHoldExpiry => cases hexec; exact h.whenRunning (.ite (fun _ => State.rests_arbitrate _) fun _ => h)
  | refokRise =>
    simp only [exec, execRefokRise] at hexec
    split at hexec
    · cases hexec; exact h
    · cases hexec; exact h.refokRise
  | refokFall =>
    simp only [exec, execRefokFall] at hexec
    split at hexec
    · cases hexec; exact h.refokFall
    · cases hexec; exact h
  | attemptTimerExpiry => cases hexec; exact h.whenRunning (.ite (fun _ => State.rests_arbitrate _) fun _ => h)
  | capIntervalExpiry => cases hexec; exact h.whenRunning (.ite (fun _ => State.rests_arbitrate _) fun _ => h)
  | settleTimerExpiry => cases hexec; exact h.whenRunning (.ite (fun _ => State.rests_arbitrate _) fun _ => h)
  | linkLossTimerExpiry => cases hexec; exact h.whenRunning (.ite (fun _ => State.rests_arbitrate _) fun _ => h)
  | idleTimerExpiry => cases hexec; exact h.whenRunning h.idleExpires
  | trunkPacketEnd => cases hexec; exact h.whenRunning h.packetEnds
  | trunkBadPacket bytes => cases hexec; exact h.whenRunning (.ite (fun _ => h.bump ..) fun _ => h)
  | cap fields => cases hexec; exact h.whenRunning (h.receive fun hu => hu.takeCap fields)
  | capack fields => cases hexec; exact h.whenRunning (h.receive fun hu => .ite (fun _ => State.rests_arbitrate _) fun _ => hu)
  | credit request push => cases hexec; exact h.whenRunning (h.receive fun hu => .ite (fun _ => State.rests_arbitrate _) fun _ => hu)
  | keep => cases hexec; exact h.whenRunning (h.receive fun hu => hu)
  | incomingManagementRequest tag dest source addr body => cases hexec; exact h.whenRunning (h.receive fun hu => hu.takeRequest _)
  | psh dest source addr payload => cases hexec; exact h.whenRunning (h.receive fun hu => hu.bump ..)
  | cpl dest tag status remaining payload => cases hexec; exact h.whenRunning (h.receive fun hu => hu.takeCompletion ..)
  | ntc source dest code arg => cases hexec; exact h.whenRunning (h.receive fun hu => hu.noticeArrives ..)
  | selfNotice block => cases hexec; exact h.whenRunning (h.takeOffer block)
  | pieceSuccess record => cases hexec; exact h.whenRunning (h.pieceSucceeds record)
  | pieceFailure record => cases hexec; exact h.whenRunning (h.pieceFails record)
  | timeoutReport slot => cases hexec; exact h.whenRunning (h.takeNodeReport slot _ fun hu => hu.nodeTimesOut slot)
  | successReport slot => cases hexec; exact h.whenRunning (h.takeNodeReport slot _ fun hu => hu.nodeSucceeds slot)
  | quarantineAtXu slot => cases hexec; exact h.whenRunning (.ite (fun _ => State.rests_arbitrate _) fun _ => h)
  | quarantineAtPq slot => cases hexec; exact h.whenRunning (.ite (fun _ => State.rests_arbitrate _) fun _ => h)
  | quarantineAtIa slot => cases hexec; exact h.whenRunning (h.quarantineIa slot)
  | leavingUpAtXu => cases hexec; exact h.whenRunning h.leftUpXu
  | leavingUpAtCu => cases hexec; exact h.whenRunning h.leftUpCu
  | leavingUpAtPq => cases hexec; exact h.whenRunning h.leftUpPq
  | leavingUpAtRu => cases hexec; exact h.whenRunning h.leftUpRu
  | leavingUpAtIa => cases hexec; exact h.whenRunning h.leftUpIa
  | failedAtXu => cases hexec; exact h.whenRunning h.failedXu
  | failedAtPq => cases hexec; exact h.whenRunning h.failedPq

/-- Settles O56: `NothingWaits` is rest, and every command keeps it. -/
theorem nothingSendableWaits : Obligations.NothingSendableWaits := by
  unfold Obligations.NothingSendableWaits
  intro s t ho _ hw hstep
  have rests := nothingWaits_iff.1 hw
  rw [nothingWaits_iff]
  unfold step at hstep
  split at hstep
  · cases hstep; exact rests
  · next c rest _ =>
    exact exec_rests (s := { s with pending := rest }) (rests.same rfl rfl rfl rfl rfl rfl rfl) ho hstep

end Sys2Proof.Machine
end


section
/-! The laws that every step keeps (O51 to O59), and what a step and the resets are (O1 to O4, O60). -/

namespace Sys2Proof.Machine

/-- Settles O51. -/
theorem noticesAndPushesKept : Obligations.NoticesAndPushesKept := by
  unfold Obligations.NoticesAndPushesKept
  exact ⟨fun _ _ hn ho h => (step_keeps h).notices hn ho, fun _ _ hp h => (step_keeps h).pushes hp⟩

/-- Settles O52. -/
theorem xnosAndOrderListKept : Obligations.XnosAndOrderListKept := by
  unfold Obligations.XnosAndOrderListKept
  exact ⟨fun _ _ hx h => (step_keeps h).xnos trivial hx, fun _ _ ho ha h => (step_keeps h).order ho ha⟩

/-- Settles O53. -/
theorem recordsKept : Obligations.RecordsKept := by
  unfold Obligations.RecordsKept
  exact fun _ _ ho ha hr h => (step_keeps h).records ho ha hr

/-- Settles O54. -/
theorem outstandingAndTagsKept : Obligations.OutstandingAndTagsKept := by
  unfold Obligations.OutstandingAndTagsKept
  exact ⟨fun _ _ ho ha hout h => (step_keeps h).outstanding ho ha hout, fun _ _ ht h => (step_keeps h).tags ht,
    fun _ _ hn hb h => (step_keeps h).busyCounts hn hb⟩

/-- Settles O55. -/
theorem atMostFivePieces : Obligations.AtMostFivePieces := by
  unfold Obligations.AtMostFivePieces
  exact ⟨fun _ _ ho ha hr hn hneg hc h => (step_keeps h).carving ho ha hr hn hneg hc, fun _ h i => (h i).1⟩

/-- Settles O57. -/
theorem tablesKept : Obligations.TablesKept := by
  unfold Obligations.TablesKept
  exact fun _ _ hr hn h => ⟨(step_keeps h).relations hr hn, (step_keeps h).nodes hn⟩

/-- Settles O58. -/
theorem buffersSettingsAndLineKept : Obligations.BuffersSettingsAndLineKept := by
  unfold Obligations.BuffersSettingsAndLineKept
  exact ⟨fun _ _ hb h => (step_keeps h).buffers hb, fun _ _ hs h => (step_keeps h).settings hs, fun _ _ hl h => (step_keeps h).line hl⟩

/-- Settles O59. -/
theorem linkKept : Obligations.LinkKept := by
  unfold Obligations.LinkKept
  exact fun _ _ ht hc hn h => ⟨(step_keeps h).timers ht, (step_keeps h).credits hc, (step_keeps h).negotiation hn⟩

/-- Settles O1. -/
theorem stepTakesTheFront : Obligations.StepTakesTheFront := by
  unfold Obligations.StepTakesTheFront
  refine ⟨fun c rest s h => ?_, fun s h => ?_⟩
  · unfold step; rw [h]
  · unfold step; rw [h]

/-- Settles O2. -/
theorem noCommandStops : Obligations.NoCommandStops := by
  unfold Obligations.NoCommandStops
  intro c s
  obtain ⟨t, ht, keeps⟩ := exec_keeps c s
  exact ⟨t, ht, keeps.pending⟩

end Sys2Proof.Machine
end


section
/-! The two resets (O3, O4), and the state after reset (O60). -/

namespace Sys2Proof.Machine

/-- Settles O3, by the level of REFOK. -/
theorem powerOnReset : Obligations.PowerOnReset := by
  unfold Obligations.PowerOnReset
  intro sta lrate tpermit s
  refine ⟨s.powerOn sta lrate tpermit, rfl, ?_⟩
  unfold State.powerOn
  cases s.refok
  · exact ⟨rfl, rfl, rfl, rfl, rfl, rfl, rfl, rfl, rfl, rfl, rfl, rfl, rfl, rfl⟩
  · exact ⟨rfl, rfl, rfl, rfl, rfl, rfl, rfl, rfl, rfl, rfl, rfl, rfl, rfl, rfl⟩

/-- A command that moves no pin is carried out only while RESETN is high. -/
theorem exec_whenRunning {c : Instr} (hpower : ∀ sta lrate tpermit, c ≠ .powerOnReset sta lrate tpermit) (hlow : c ≠ .resetnLow)
    (hrise : c ≠ .refokRise) (hfall : c ≠ .refokFall) : ∃ f : State → State, ∀ s, exec c s = .next (s.whenRunning f) := by
  cases c with
  | powerOnReset sta lrate tpermit => exact absurd rfl (hpower sta lrate tpermit)
  | resetnLow => exact absurd rfl hlow
  | refokRise => exact absurd rfl hrise
  | refokFall => exact absurd rfl hfall
  | _ => exact ⟨_, fun _ => rfl⟩

/-- While RESETN is low a command but POWER_ON_RESET moves at most the level of REFOK (logs 14 and 25). -/
theorem exec_low {c : Instr} {s : State} (hr : s.resetn = false) (hheld : s.heldInReset = s)
    (hpower : ∀ sta lrate tpermit, c ≠ .powerOnReset sta lrate tpermit) :
    exec c s = .next { s with refok := if c = .refokRise then true else if c = .refokFall then false else s.refok } := by
  by_cases hlow : c = .resetnLow
  · subst hlow
    exact congrArg Host.Outcome.next hheld
  by_cases hrise : c = .refokRise
  · subst hrise
    show execRefokRise s = .next { s with refok := true }
    unfold execRefokRise
    split
    · next h => rw [← h]
    · exact congrArg Host.Outcome.next (State.whenRunning_false _ _ hr)
  by_cases hfall : c = .refokFall
  · subst hfall
    show execRefokFall s = .next { s with refok := false }
    unfold execRefokFall
    split
    · exact congrArg Host.Outcome.next (State.whenRunning_false _ _ hr)
    · next h => rw [← Bool.eq_false_iff.2 h]
  obtain ⟨f, hf⟩ := exec_whenRunning hpower hlow hrise hfall
  rw [hf, State.whenRunning_false _ _ hr, if_neg hrise, if_neg hfall]

/-- Settles O4. -/
theorem resetnLow : Obligations.ResetnLow := by
  unfold Obligations.ResetnLow
  refine ⟨fun s => ⟨s.heldInReset, rfl, ?_⟩, fun c s hr hheld hpower => exec_low hr hheld hpower⟩
  exact ⟨rfl, rfl, rfl, rfl, rfl, rfl, rfl, rfl, rfl, rfl, rfl, rfl, rfl, rfl, rfl, rfl, rfl⟩

/-- Settles O60: no record, push, tag, buffer or notice stands after POR. -/
theorem resetKeepsEveryLaw : Obligations.ResetKeepsEveryLaw := by
  unfold Obligations.ResetKeepsEveryLaw
  have noBusy (t : TagIx) : (look State.reset.cu.tags t).state ≠ .busy := by simp [State.reset, Tag.free]
  refine ⟨noticesOk_por.1, noticesOk_por.2, ?_, ?_, ?_, ?_, ?_, ?_, ?_, rfl, tagsOk_por, ?_, nodesOk_por _, relationsOk_por,
    buffersOk_por, ?_, ?_, ?_, settingsOk_por _ _, lineOk_of_hunt rfl, rfl⟩
  · simp [PushesOk, State.reset, PushQueue.bytesHeld]
  · simp [XnosOk, State.reset, Exchange.free]
  · simp [AnswerRanksOk, State.reset, Exchange.free]
  · simp [OrderListOk, State.reset, State.record, Exchange.free, Exchange.inWork]
  · exact fun i => by simpa [State.reset] using Exchange.free_ok
  · exact fun i => by
      rw [ownedBy_of_none fun j hj => absurd hj (noBusy j)]
      simp [State.reset, State.record, Reports.none, Exchange.free, Exchange.inWork]
  · exact carvingOk_iff.2 fun i => by simpa [State.reset] using Exchange.free_carvingOk
  · exact fun n => by rw [busyCount_of_none noBusy]; exact Nat.zero_le _
  · simp [LinkTimersOk, State.reset]
  · exact fun _ _ => ⟨rfl, rfl, rfl, rfl⟩
  · simp [NegotiationOk, State.reset, Config.pinRefok]

end Sys2Proof.Machine
end


section
/-! IA: the claims in their order (O46), the member it picks (O47), and the piece it issues (O48). -/

namespace Sys2Proof.Machine

/-! ### The claims (R85, R90 to R92) -/

theorem State.rateInForce_negotiate {s : State} (h : s.tp.link = .negotiate) : s.rateInForce = 1 := by simp [State.rateInForce, h]

theorem State.rateInForce_linked {s : State} (h : s.tp.link = .settle ∨ s.tp.link = .up) : s.rateInForce = s.tp.rateClass := by
  simp [State.rateInForce, h]

theorem State.send_eq (p : Packet) (e : PacketEffect) (s : State) :
    s.send p e = { s with ia := { s.ia with transmitter := .sending p s.rateInForce e, idleTimer := none } } := rfl

/-- Settles O46. -/
theorem claimsGoInOrder : Obligations.ClaimsGoInOrder := by
  unfold Obligations.ClaimsGoInOrder
  refine fun s => ⟨fun ⟨p, rate, effect, h⟩ => State.arbitrate_sending h, State.arbitrate_quiet, fun hfree hl => ?_, fun hfree hl => ?_⟩
  · rw [State.arbitrate_negotiate hfree hl]
    have rate := State.rateInForce_negotiate hl
    refine ⟨fun f hclaim hfar => ?_, fun hclaim hcap => ?_, fun hclaim hcap => ?_⟩
    · simp only [State.sendNegotiation, hclaim, hfar, State.send_eq, State.onIa]
      rw [← rate]; rfl
    · simp only [State.sendNegotiation, hclaim, hcap, if_true, State.send_eq, State.onIa]
      rw [← rate]; rfl
    · simp [State.sendNegotiation, hclaim, hcap]
  · rw [State.arbitrate_up hfree hl]
    have rate := State.rateInForce_linked (.inr hl)
    refine ⟨fun hcredit => ?_, fun c rest hcredit hcpl => ?_, fun hcredit hcpl hpick => ?_⟩
    · simp only [State.sendWork, hcredit, if_true, State.send_eq, State.onIa]
      rw [← rate]; rfl
    · simp only [State.sendWork, hcredit, hcpl, Bool.false_eq_true, if_false, State.send_eq, State.onIa]
      rw [← rate]; rfl
    · simp [State.sendWork, hcredit, hcpl, State.issueNext, hpick]

/-! ### The pick (R80 to R85) -/

theorem mayPass_eq (later earlier : MemberView) : mayPass later earlier =
    match later.kind, earlier.kind with
    | .push, .push => false
    | .write, .write => false
    | .push, _ => true
    | _, .push => later.relaxed && later.window != earlier.window
    | _, _ => true := by
  unfold mayPass
  cases later.kind <;> cases earlier.kind <;> rfl

/-- Settles O47. -/
theorem pickObeysTheOrder : Obligations.PickObeysTheOrder := by
  unfold Obligations.PickObeysTheOrder
  refine ⟨fun s v => ?_, fun s v => ?_, fun s => rfl, fun records i p order pushes => ⟨rfl, ?_, rfl⟩, mayPass_eq⟩
  · show s.pickFrom [] s.members = some v ↔ _
    simpa only [List.nil_append] using State.pickFrom_eq_some (s := s) (earlier := []) (l := s.members) (v := v)
  · rw [State.resourcesFor_iff, State.judgedLive_iff]
    rfl
  · cases hk : (look records i).kind <;> simp [memberViews, exchangeView, hk]

/-! ### The issue of a piece (R86 to R88) -/

theorem CompletionUnit.freeTag_eq {u : CompletionUnit} {t : TagIx} (h : (look u.tags t).state = .free)
    (hlow : ∀ j, j < t → (look u.tags j).state ≠ .free) : u.freeTag = some t :=
  firstIx_some.2 ⟨by simpa using h, fun j hj => by simpa using hlow j hj⟩

/-- With no claim of a higher class, IA issues a piece of the member it picks. -/
theorem State.arbitrate_issue {s : State} (hfree : s.ia.transmitter = .free) (hl : s.tp.link = .up) (hcredit : s.ia.creditClaim = false)
    (hcpl : s.ia.cplClaims = []) : s.arbitrate = s.issueNext := by
  rw [State.arbitrate_up hfree hl]
  simp [State.sendWork, hcredit, hcpl]

theorem State.issueNext_exchange {s : State} {v : MemberView} {i : RecIx} (h : s.pick = some v) (hm : v.member = .exchange i) :
    s.issueNext = s.issueExchange i := by
  simp [State.issueNext, h, hm]

theorem State.issueNext_push {s : State} {v : MemberView} (h : s.pick = some v) (hm : v.member = .push) : s.issueNext = s.issuePush := by
  simp [State.issueNext, h, hm]

theorem Member.leaveIfDone_eq (i : RecIx) (e : Exchange) (order : List Member) : Member.leaveIfDone i e order =
    if e.nextOffset < e.issueLength ∧ e.abandoned = false then order else order.filter (· != .exchange i) := by
  unfold Member.leaveIfDone
  by_cases h : e.hasUnissued = true
  · rw [if_pos h, if_pos (e.hasUnissued_iff.1 h)]
  · rw [if_neg h, if_neg fun h' => h (e.hasUnissued_iff.2 h')]

/-- A piece of the head push (R72, R88): with bytes left over the head stays, and else it leaves. -/
theorem State.issuePush_eq {s : State} {p : Push} {rest : List Push} (hp : s.pq.pushes = p :: rest) {start : FabricAddr} {length : Nat}
    (hstart : start = p.addr + BitVec.ofNat 40 p.issued) (hlength : length = carve (s.effectivePiece p.slot) start.toNat p.unissued)
    {u : State} (hu : u = { s with
      tp := { s.tp with pushConsumed := s.tp.pushConsumed + 1 }
      ia := { s.ia with
        idleTimer := none
        transmitter := .sending (.psh (look s.tu.nodes p.slot).nodeId s.tp.nodeId start (slice p.payload p.issued length)) s.rateInForce
          .nothing } }) :
    s.issuePush = if p.length ≤ p.issued + length then u.headLeaves.testHead
      else { u with pq := ⟨{ p with issued := p.issued + length } :: rest⟩ } := by
  subst hu hstart hlength
  simp only [State.issuePush, hp]
  rfl

/-- Settles O48. -/
theorem pieceIsIssued : Obligations.PieceIsIssued := by
  unfold Obligations.PieceIsIssued
  intro s _ hl hfree hcredit hcpl
  have rate := State.rateInForce_linked (.inr hl)
  rw [State.arbitrate_issue hfree hl hcredit hcpl]
  refine ⟨?_, ?_⟩
  · rintro v i t e start length node hpick hm htag hlow rfl rfl rfl rfl
    have order := Member.leaveIfDone_eq i ((s.record i).issued (s.exchangePiece i).2) s.ia.orderList
    rw [State.issueNext_exchange hpick hm, State.issueExchange_eq (CompletionUnit.freeTag_eq htag hlow), order, rate]
    rfl
  · rintro v p rest start length node u hpick hm hp rfl hstart hlength hu
    rw [← rate] at hu
    rw [State.issueNext_push hpick hm, State.issuePush_eq hp hstart hlength hu]
    refine ⟨fun hleft => if_neg (by simpa [Push.length] using hleft), fun cut kept hdone hrest hcut hkept => ?_⟩
    have leaves : u.headLeaves = { u with pq := ⟨rest⟩, ia := { u.ia with orderList := s.ia.orderList.erase .push } } := by
      subst hu
      simp [State.headLeaves, State.onPq, State.onIa, hp]
    have nodes : u.tu = s.tu := by rw [hu]
    rw [if_pos (by simpa [Push.length] using hdone), leaves]
    exact (State.testHead_run cut kept _ hrest (by rw [nodes]; exact hcut) (by rw [nodes]; exact hkept)).1

end Sys2Proof.Machine
end


section
/-! The line: characters gathered into frames (O5), frames accepted (O6) or dropped (O7), and replies (O8). -/

namespace Sys2Proof.Machine

/-! ### Characters (R1, R3 to R5) -/

theorem exec_goodCharacter {s : State} (h : s.resetn = true) (b : Byte) : exec (.goodCharacter b) s = .next (s.hear b) :=
  congrArg Host.Outcome.next (State.whenRunning_true s _ h)

theorem exec_lineFrame {s : State} (h : s.resetn = true) (chars : List Byte) :
    exec (.lineFrame chars) s = .next (chars.foldl (fun u b => u.hear b) s) :=
  congrArg Host.Outcome.next (State.whenRunning_true s _ h)

theorem exec_breaks {s : State} (h : s.resetn = true) :
    exec .framingError s = .next s.breakFrame ∧ exec .lineSilence s = .next s.breakFrame :=
  ⟨congrArg Host.Outcome.next (State.whenRunning_true s _ h), congrArg Host.Outcome.next (State.whenRunning_true s _ h)⟩

/-- The assembler holds these bytes after a lead. -/
def State.gathered (bytes : List Byte) (s : State) : State := s.onLp fun l => { l with assembler := .inFrame bytes }

/-- A frame begun that neither ends here nor has a length byte above 244 (R3). -/
def Unfinished (bytes : List Byte) : Prop :=
  bytes.length < 3 ∨ (byteAt bytes 2).toNat ≤ 244 ∧ bytes.length < (byteAt bytes 2).toNat + 5

/-- The bytes of a frame whose length byte agrees with them (R3). -/
def Whole (bytes : List Byte) : Prop := (byteAt bytes 2).toNat ≤ 244 ∧ bytes.length = (byteAt bytes 2).toNat + 5

theorem byteAt_append_left {a : List Byte} {i : Nat} (b : List Byte) (h : i < a.length) : byteAt (a ++ b) i = byteAt a i := by
  simp [byteAt, List.getElem?_append_left h]

theorem Unfinished.of_append {a b : List Byte} (h : Unfinished (a ++ b)) : Unfinished a := by
  unfold Unfinished at h ⊢
  by_cases ha : a.length < 3
  · exact .inl ha
  · rw [byteAt_append_left b (by omega), List.length_append] at h
    omega

theorem Whole.init {a : List Byte} {b : Byte} (h : Whole (a ++ [b])) : Unfinished a := by
  obtain ⟨hle, hlen⟩ := h
  rw [List.length_append, List.length_singleton] at hlen
  rw [byteAt_append_left [b] (by omega)] at hle hlen
  exact .inr ⟨hle, by omega⟩

section
variable {s : State}

theorem State.gather_joins {bytes : List Byte} (h3 : bytes.length = 3 → (byteAt bytes 2).toNat ≤ 244)
    (hmore : 3 ≤ bytes.length → bytes.length ≠ (byteAt bytes 2).toNat + 5) : s.gather bytes = s.gathered bytes := by
  unfold State.gather Config.maxLinePayload
  rw [if_neg (by omega), if_neg fun ⟨hlen, heq⟩ => hmore hlen heq]
  rfl

theorem State.gather_unfinished {bytes : List Byte} (h : Unfinished bytes) : s.gather bytes = s.gathered bytes := by
  unfold Unfinished at h
  exact State.gather_joins (by omega) (by omega)

theorem State.gather_whole {bytes : List Byte} (h : Whole bytes) : s.gather bytes = s.frameEnds bytes := by
  obtain ⟨hle, hlen⟩ := h
  unfold State.gather Config.maxLinePayload
  rw [if_neg (by omega), if_pos (by omega)]

theorem State.gather_tooLong {bytes : List Byte} (hlen : bytes.length = 3) (h : 244 < (byteAt bytes 2).toNat) : s.gather bytes = s.frameLost := by
  unfold State.gather Config.maxLinePayload
  rw [if_pos ⟨hlen, h⟩]

theorem State.hear_deaf (b : Byte) (h : s.lp.hears = false) : s.hear b = s := by simp [State.hear, h]

theorem State.hear_lead (h : s.lp.hears = true) (ha : s.lp.assembler = .hunt) : s.hear 0xA5 = s.gathered [] := by
  simp [State.hear, h, ha, State.gathered]

theorem State.hear_noise {b : Byte} (h : s.lp.hears = true) (ha : s.lp.assembler = .hunt) (hb : b ≠ 0xA5) : s.hear b = s := by
  simp only [State.hear, h, ha, if_true, if_neg hb]

theorem State.hear_inFrame {bytes : List Byte} (b : Byte) (h : s.lp.hears = true) (ha : s.lp.assembler = .inFrame bytes) :
    s.hear b = s.gather (bytes ++ [b]) := by
  simp [State.hear, h, ha]

theorem State.hear_resetn (b : Byte) (s : State) : (s.hear b).resetn = s.resetn := by
  unfold State.hear State.gather State.frameEnds
  repeat' split
  all_goals rfl

/-- The characters of an unfinished frame join it. -/
theorem State.hearAll_unfinished {bytes more : List Byte} (h : s.lp.hears = true) (hu : Unfinished (bytes ++ more)) :
    more.foldl (fun u b => u.hear b) (s.gathered bytes) = s.gathered (bytes ++ more) := by
  induction more generalizing bytes with
  | nil => simp
  | cons b more ih =>
    rw [List.append_cons] at hu
    have joins : (s.gathered bytes).hear b = s.gathered (bytes ++ [b]) :=
      (State.hear_inFrame (s := s.gathered bytes) b h rfl).trans (State.gather_unfinished hu.of_append)
    rw [List.foldl_cons, joins, ih hu, ← List.append_cons]

/-- The station and kind rules do not read the assembler. -/
theorem LinePort.accept_assembler (bytes : List Byte) (a : Assembler) (l : LinePort) :
    { ({ l with assembler := a } : LinePort).accept bytes with assembler := .hunt } = { l.accept bytes with assembler := .hunt } := by
  unfold LinePort.accept LinePort.answers
  cases requestKind ((byteAt bytes 1 >>> 4).setWidth 4) with
  | none => rfl
  | some kind =>
    simp only
    by_cases broadcast : byteAt bytes 0 = 31
    · rw [if_pos broadcast, if_pos broadcast]
      by_cases push : kind = .push
      · rw [if_pos push, if_pos push]
      · rw [if_neg push, if_neg push]
    · rw [if_neg broadcast, if_neg broadcast]
      by_cases taken : byteAt bytes 0 = l.station ∧ (1 ≤ l.station.toNat && l.station.toNat ≤ 30) = true ∧ l.transmitter = .idle
      · rw [if_pos taken, if_pos taken]
      · rw [if_neg taken, if_neg taken]

/-- A frame that ends is judged by its bytes alone. -/
theorem State.frameEnds_gathered (bytes held : List Byte) : (s.gathered held).frameEnds bytes = s.frameEnds bytes := by
  unfold State.frameEnds
  split
  · exact congrArg (fun l => { s with lp := l }) (LinePort.accept_assembler bytes _ s.lp)
  · rfl

/-- A whole frame heard from HUNT. -/
theorem State.hearFrame {bytes : List Byte} (h : s.lp.hears = true) (ha : s.lp.assembler = .hunt) (hw : Whole bytes) :
    (0xA5 :: bytes).foldl (fun u b => u.hear b) s = s.frameEnds bytes := by
  obtain rfl | ⟨init, b, rfl⟩ := List.eq_nil_or_concat' bytes
  · exact absurd hw.2 (by simp)
  · rw [List.foldl_cons, State.hear_lead h ha, List.foldl_append, State.hearAll_unfinished h (by simpa using hw.init)]
    exact (State.hear_inFrame (s := s.gathered init) b h rfl).trans ((State.gather_whole hw).trans (State.frameEnds_gathered _ _))

theorem State.frameLost_eq (s : State) : s.frameLost = { s with lp := { s.lp with assembler := .hunt }, mu := s.mu.counts .lineCrc 1 } := rfl

theorem State.breakFrame_inFrame {bytes : List Byte} (h : s.lp.hears = true) (ha : s.lp.assembler = .inFrame bytes) :
    s.breakFrame = s.frameLost := by
  simp [State.breakFrame, h, ha]

theorem State.breakFrame_of_hunt (ha : s.lp.assembler = .hunt) : s.breakFrame = s := by simp [State.breakFrame, ha]

end

theorem State.frameEnds_hunting (bytes : List Byte) (s : State) :
    ({ s with lp := { s.lp with assembler := .hunt } } : State).frameEnds bytes = s.frameEnds bytes :=
  (State.frameEnds_gathered (s := { s with lp := { s.lp with assembler := .hunt } }) bytes []).symm.trans
    (State.frameEnds_gathered (s := s) bytes [])

theorem exec_goodCharacter_cases (s : State) (b : Byte) (hr : s.resetn = true) :
    (s.lp.hears = true → s.lp.assembler = .hunt → b = 0xA5 →
       exec (.goodCharacter b) s = .next { s with lp := { s.lp with assembler := .inFrame [] } })
    ∧ (s.lp.hears = true → s.lp.assembler = .hunt → b ≠ 0xA5 → exec (.goodCharacter b) s = .next s)
    ∧ (∀ bytes : List Byte, s.lp.hears = true → s.lp.assembler = .inFrame bytes →
         (bytes.length < 2 ∨ bytes.length = 2 ∧ b.toNat ≤ 244
           ∨ 3 ≤ bytes.length ∧ bytes.length + 1 < (byteAt bytes 2).toNat + 5) →
         exec (.goodCharacter b) s = .next { s with lp := { s.lp with assembler := .inFrame (bytes ++ [b]) } })
    ∧ (∀ bytes : List Byte, s.lp.hears = true → s.lp.assembler = .inFrame bytes → bytes.length = 2 → 244 < b.toNat →
         exec (.goodCharacter b) s = .next { s with lp := { s.lp with assembler := .hunt }, mu := s.mu.counts .lineCrc 1 })
    ∧ (∀ bytes : List Byte, s.lp.hears = true → s.lp.assembler = .inFrame bytes → 3 ≤ bytes.length →
         (byteAt bytes 2).toNat ≤ 244 → bytes.length + 1 = (byteAt bytes 2).toNat + 5 →
         exec (.goodCharacter b) s
           = exec (.lineFrame (0xA5 :: (bytes ++ [b]))) { s with lp := { s.lp with assembler := .hunt } })
    ∧ (s.lp.hears = false → exec (.goodCharacter b) s = .next s) := by
  rw [exec_goodCharacter hr]
  refine ⟨fun h ha hb => ?_, fun h ha hb => ?_, fun bytes h ha hlen => ?_, fun bytes h ha hlen hb => ?_, fun bytes h ha h3 hle hlen => ?_,
    fun h => ?_⟩
  · rw [hb, State.hear_lead h ha]
    rfl
  · rw [State.hear_noise h ha hb]
  · have third (h2 : bytes.length = 2) : byteAt (bytes ++ [b]) 2 = b := by simp [byteAt, ← h2]
    rw [State.hear_inFrame b h ha]
    rcases hlen with hlen | ⟨hlen, hb⟩ | ⟨h3, hlen⟩
    · rw [State.gather_unfinished (.inl (by simp; omega))]
      rfl
    · rw [State.gather_unfinished (.inr (by rw [third hlen]; simp [hlen]; omega))]
      rfl
    · rw [State.gather_joins (by simp; omega) (by rw [byteAt_append b (by omega)]; simp; omega)]
      rfl
  · have third : byteAt (bytes ++ [b]) 2 = b := by simp [byteAt, ← hlen]
    rw [State.hear_inFrame b h ha, State.gather_tooLong (by simp [hlen]) (by rwa [third]), State.frameLost_eq]
  · have whole : Whole (bytes ++ [b]) := by
      unfold Whole
      rw [byteAt_append b (by omega)]
      exact ⟨hle, by simpa using hlen⟩
    have heard := (State.hearFrame (s := { s with lp := { s.lp with assembler := .hunt } }) h rfl whole).trans
      (State.frameEnds_hunting _ s)
    rw [State.hear_inFrame b h ha, State.gather_whole whole, ← heard]
    exact (exec_lineFrame (s := { s with lp := { s.lp with assembler := .hunt } }) hr _).symm
  · rw [State.hear_deaf b h]

/-- Inside a frame a break, a silence and a length above 244 lose the frame; in HUNT the first two do nothing. -/
theorem exec_breaks_cases (s : State) (bytes : List Byte) (length : Byte) (hr : s.resetn = true) (h : s.lp.hears = true) :
    (s.lp.assembler = .inFrame bytes →
        exec .framingError s = .next { s with lp := { s.lp with assembler := .hunt }, mu := s.mu.counts .lineCrc 1 }
        ∧ exec .lineSilence s = .next { s with lp := { s.lp with assembler := .hunt }, mu := s.mu.counts .lineCrc 1 }
        ∧ (bytes.length = 2 → 244 < length.toNat →
            exec (.lengthAbandon length) s = .next { s with lp := { s.lp with assembler := .hunt }, mu := s.mu.counts .lineCrc 1 }))
      ∧ (s.lp.assembler = .hunt → exec .framingError s = .next s ∧ exec .lineSilence s = .next s) := by
  rw [(exec_breaks hr).1, (exec_breaks hr).2]
  refine ⟨fun ha => ?_, fun ha => by rw [State.breakFrame_of_hunt ha]; exact ⟨rfl, rfl⟩⟩
  rw [State.breakFrame_inFrame h ha, State.frameLost_eq]
  refine ⟨rfl, rfl, fun hlen hlong => ?_⟩
  have expects : s.lp.expectsLength = true := by simp [LinePort.expectsLength, ha, hlen]
  have third : byteAt (bytes ++ [length]) 2 = length := by simp [byteAt, ← hlen]
  have running : exec (.lengthAbandon length) s
      = .next (if s.lp.expectsLength ∧ Config.maxLinePayload < length.toNat then s.hear length else s) :=
    congrArg Host.Outcome.next (State.whenRunning_true s _ hr)
  rw [running, if_pos ⟨expects, hlong⟩, State.hear_inFrame length h ha, State.gather_tooLong (by simp [hlen]) (by rwa [third]),
    State.frameLost_eq]

/-! ### The levels of the pins (R1; log 16) -/

theorem characterLevels_eq (b : Byte) : characterLevels b = [false, b.getLsbD 0, b.getLsbD 1, b.getLsbD 2, b.getLsbD 3, b.getLsbD 4,
    b.getLsbD 5, b.getLsbD 6, b.getLsbD 7, true] := by
  simp [characterLevels, dataBits, List.range_succ]

theorem LineReceiver.commands_characters (chars : List (Nat × Byte)) :
    LineReceiver.waiting.commands (chars.flatMap fun c => List.replicate c.1 true ++ characterLevels c.2)
      = chars.map fun c => .goodCharacter c.2 := by
  induction chars with
  | nil => rfl
  | cons c chars ih =>
    rw [List.flatMap_cons, List.append_assoc, LineReceiver.commands_idle, LineReceiver.commands_character, ih, List.map_cons]

theorem LineReceiver.commands_break {bits : List Bool} (low : Nat) (rest : List Bool) (h : bits.length = 8) :
    LineReceiver.waiting.commands (false :: (bits ++ false :: (List.replicate low false ++ true :: rest)))
      = .framingError :: LineReceiver.waiting.commands rest := by
  rw [LineReceiver.commands_started _ h, LineReceiver.commands_lowStop _ h, LineReceiver.commands_heldLow]

theorem State.ltxdLevels_send {s : State} {frame : List Byte} {effect : ReplyEffect} (hr : s.resetn = true)
    (h : s.lp.transmitter = .send frame effect) : s.ltxdLevels = frame.flatMap characterLevels := by
  simp [State.ltxdLevels, hr, h, frameLevels]

theorem State.ltxdLevels_high {s : State} (h : s.resetn = false ∨ ∀ frame effect, s.lp.transmitter ≠ .send frame effect) :
    s.ltxdLevels = [true] := by
  unfold State.ltxdLevels
  split
  · next hr =>
    split
    · next hs => exact absurd hs ((h.resolve_left (by simp [hr])) _ _)
    · rfl
    · rfl
  · rfl

/-- Settles O5. -/
theorem charactersAreGathered : Obligations.CharactersAreGathered := by
  unfold Obligations.CharactersAreGathered
  refine ⟨fun s b hr => ?_, exec_breaks_cases, characterLevels_eq, LineReceiver.commands_characters,
    fun bits low rest h => LineReceiver.commands_break low rest h,
    fun s => ⟨fun _ _ hr h => State.ltxdLevels_send hr h, State.ltxdLevels_high⟩⟩
  obtain ⟨lead, noise, joins, long, ends, deaf⟩ := exec_goodCharacter_cases s b hr
  refine ⟨lead, noise, joins, long, ends, deaf, exec_lineFrame hr [], fun chars t ht => ?_⟩
  rw [exec_goodCharacter hr] at ht
  obtain rfl := Host.Outcome.next.inj ht
  rw [exec_lineFrame hr, exec_lineFrame ((State.hear_resetn b s).trans hr)]
  rfl

/-! ### Frames (R3, R5, R6, R8) -/

/-- The bytes after the lead of a frame whose length byte is right. -/
def frameBytes (station control : Byte) (payload crc : List Byte) : List Byte :=
  station :: control :: BitVec.ofNat 8 payload.length :: (payload ++ crc)

section
variable {station control : Byte} {payload crc : List Byte}

theorem byteAt_frameBytes_station : byteAt (frameBytes station control payload crc) 0 = station := rfl

theorem byteAt_frameBytes_control : byteAt (frameBytes station control payload crc) 1 = control := rfl

theorem length_toNat (h : payload.length ≤ 244) : (BitVec.ofNat 8 payload.length).toNat = payload.length := by
  rw [BitVec.toNat_ofNat]
  omega

theorem whole_frameBytes (h : payload.length ≤ 244) (hc : crc.length = 2) : Whole (frameBytes station control payload crc) := by
  have third : byteAt (frameBytes station control payload crc) 2 = BitVec.ofNat 8 payload.length := rfl
  unfold Whole
  rw [third, length_toNat h]
  exact ⟨h, by simp [frameBytes, hc]⟩

theorem frameGood_frameBytes (hc : crc.length = 2) : frameGood (frameBytes station control payload crc) =
    (crc == beBytes 2 (crc16 (station :: control :: BitVec.ofNat 8 payload.length :: payload)).toNat) := by
  have hlen : (frameBytes station control payload crc).length - 2
      = (station :: control :: BitVec.ofNat 8 payload.length :: payload).length := by simp [frameBytes, hc]
  have halves : frameBytes station control payload crc = (station :: control :: BitVec.ofNat 8 payload.length :: payload) ++ crc := rfl
  rw [frameGood, hlen, halves, List.drop_left, List.take_left]

theorem slice_frameBytes (h : payload.length ≤ 244) :
    slice (frameBytes station control payload crc) 3 (byteAt (frameBytes station control payload crc) 2).toNat = payload := by
  have third : byteAt (frameBytes station control payload crc) 2 = BitVec.ofNat 8 payload.length := rfl
  rw [third, length_toNat h]
  simp [slice, frameBytes]

end

theorem requestKind_code (kind : RequestKind) : requestKind kind.code = some kind := by cases kind <;> rfl

/-- The kind code and the xno stand in the two halves of the control byte (Table 11-1). -/
theorem control_halves (code : BitVec 4) (xno : Xno) : ((code ++ xno) >>> 4).setWidth 4 = code ∧ (code ++ xno).setWidth 4 = xno := by
  revert code xno
  decide

theorem frameRequest_frameBytes {station : Byte} {xno : Xno} {payload crc : List Byte} (kind : RequestKind) (h : payload.length ≤ 244) :
    frameRequest (frameBytes station (kind.code ++ xno) payload crc) kind = ⟨station == 31, kind, xno, payload⟩ := by
  unfold frameRequest
  rw [slice_frameBytes h]
  exact congrArg (LineRequest.mk _ kind · payload) (control_halves kind.code xno).2

/-! ### The station and kind rules (R6, R8) -/

section
variable {l : LinePort} {bytes : List Byte} {kind : RequestKind}

theorem LinePort.accept_unknown (hk : requestKind ((byteAt bytes 1 >>> 4).setWidth 4) = none) : l.accept bytes = l := by
  simp only [LinePort.accept, hk]

theorem LinePort.accept_broadcast (hk : requestKind ((byteAt bytes 1 >>> 4).setWidth 4) = some kind) (hb : byteAt bytes 0 = 31) :
    l.accept bytes = if kind = .push then { l with accepted := l.accepted ++ [frameRequest bytes kind] } else l := by
  simp only [LinePort.accept, hk, if_pos hb]

theorem LinePort.accept_addressed (hk : requestKind ((byteAt bytes 1 >>> 4).setWidth 4) = some kind) (hb : byteAt bytes 0 ≠ 31) :
    l.accept bytes = if byteAt bytes 0 = l.station ∧ l.answers ∧ l.transmitter = .idle then
      { l with accepted := l.accepted ++ [frameRequest bytes kind], transmitter := .wait none } else l := by
  simp only [LinePort.accept, hk, if_neg hb]

theorem LinePort.answers_station (h : l.answers = true) : l.station ≠ 31 := by
  rintro h31
  simp [LinePort.answers, h31] at h


end

/-- The frame of a request, accepted by the station in force and by a broadcast (R6, R8). -/
theorem LinePort.accept_request {l : LinePort} {station : Byte} {xno : Xno} {payload crc : List Byte} (kind : RequestKind)
    (h : payload.length ≤ 244) :
    (station = l.station → l.answers = true → l.transmitter = .idle →
      l.accept (frameBytes station (kind.code ++ xno) payload crc)
        = { l with accepted := l.accepted ++ [⟨false, kind, xno, payload⟩], transmitter := .wait none })
    ∧ (station = 31 → kind = .push →
      l.accept (frameBytes station (kind.code ++ xno) payload crc) = { l with accepted := l.accepted ++ [⟨true, kind, xno, payload⟩] }) := by
  have hk : requestKind ((byteAt (frameBytes station (kind.code ++ xno) payload crc) 1 >>> 4).setWidth 4) = some kind := by
    rw [byteAt_frameBytes_control, (control_halves kind.code xno).1, requestKind_code]
  refine ⟨fun hs hanswers hidle => ?_, fun hs hpush => ?_⟩
  · have h31 : station ≠ 31 := hs ▸ LinePort.answers_station hanswers
    rw [LinePort.accept_addressed hk (by rwa [byteAt_frameBytes_station]), byteAt_frameBytes_station, if_pos ⟨hs, hanswers, hidle⟩,
      frameRequest_frameBytes kind h, beq_eq_false_iff_ne.2 h31]
  · rw [LinePort.accept_broadcast hk (by rwa [byteAt_frameBytes_station]), if_pos hpush, frameRequest_frameBytes kind h, beq_iff_eq.2 hs]

/-- A whole frame heard from HUNT (R3, R5): with a good CRC LP accepts or ignores it, and else it is lost. -/
theorem exec_wholeFrame {s : State} {station control : Byte} {payload crc : List Byte} (hr : s.resetn = true) (ha : s.lp.assembler = .hunt)
    (hears : s.lp.hears = true) (h : payload.length ≤ 244) (hc : crc.length = 2) :
    exec (.lineFrame (0xA5 :: frameBytes station control payload crc)) s =
      .next (if crc = beBytes 2 (crc16 (station :: control :: BitVec.ofNat 8 payload.length :: payload)).toNat then
        { s with lp := { s.lp.accept (frameBytes station control payload crc) with assembler := .hunt } }
      else { s with mu := s.mu.counts .lineCrc 1 }) := by
  rw [exec_lineFrame hr, State.hearFrame hears ha (whole_frameBytes h hc), State.frameEnds, frameGood_frameBytes hc]
  simp only [beq_iff_eq]
  congr 2
  rw [State.frameLost_eq, ← ha]

/-- Settles O6. -/
theorem lineFrameAccepted : Obligations.LineFrameAccepted := by
  unfold Obligations.LineFrameAccepted
  intro s kind xno payload hr ha hlen
  have framed (station : Byte) (kind : RequestKind) : frameOf station kind.code xno payload = 0xA5 ::
      frameBytes station (kind.code ++ xno) payload (beBytes 2 (crc16 (station :: (kind.code ++ xno) :: BitVec.ofNat 8 payload.length :: payload)).toNat) := rfl
  refine ⟨fun hidle hanswers => ?_, fun hears => ?_⟩
  · have hears : s.lp.hears = true := by simp [LinePort.hears, hidle]
    rw [framed, exec_wholeFrame hr ha hears hlen (beBytes_length _ _), if_pos rfl,
      (LinePort.accept_request kind hlen).1 rfl hanswers hidle, ← ha]
  · rw [framed, exec_wholeFrame hr ha hears hlen (beBytes_length _ _), if_pos rfl, (LinePort.accept_request .push hlen).2 rfl rfl, ← ha]

/-- Settles O7. -/
theorem lineFrameDropped : Obligations.LineFrameDropped := by
  unfold Obligations.LineFrameDropped
  intro s station control payload crc hr ha hears hlen hc
  have heard := exec_wholeFrame (station := station) (control := control) (crc := crc) hr ha hears hlen hc
  refine ⟨fun hbad => ?_, fun hgood hignored => ?_⟩
  · rw [if_neg hbad] at heard
    exact heard
  · rw [if_pos hgood] at heard
    refine heard.trans ?_
    have ignored : s.lp.accept (frameBytes station control payload crc) = s.lp := by
      cases hk : requestKind ((control >>> 4).setWidth 4) with
      | none => exact LinePort.accept_unknown (by rw [byteAt_frameBytes_control, hk])
      | some kind =>
        have hk' : requestKind ((byteAt (frameBytes station control payload crc) 1 >>> 4).setWidth 4) = some kind := by
          rw [byteAt_frameBytes_control, hk]
        rcases hignored with ⟨h31, hother⟩ | hnone | ⟨h31, hpush⟩
        · rw [LinePort.accept_addressed hk' (by rwa [byteAt_frameBytes_station]), byteAt_frameBytes_station, if_neg]
          rintro ⟨hstation, hanswers, -⟩
          rcases hother with hne | hdeaf
          · exact hne hstation
          · simp [hdeaf] at hanswers
        · simp [hk] at hnone
        · rw [LinePort.accept_broadcast hk' (by rwa [byteAt_frameBytes_station]), if_neg]
          rintro rfl
          exact hpush hk
    rw [ignored, ← ha]

/-! ### Replies (R7, R11, R17) -/

theorem exec_turnaround {s : State} (hr : s.resetn = true) {h : HandedReply} (ht : s.lp.transmitter = .wait (some h)) :
    exec .turnaround s = .next (s.breakFrame.onLp fun l =>
      { l with transmitter := .send (frameOf l.station h.reply.kind.code h.reply.xno h.reply.payload) h.effect }) := by
  refine congrArg Host.Outcome.next ((State.whenRunning_true s _ hr).trans ?_)
  simp only [State.turnaroundEnds, ht]

theorem exec_replyEnd {s : State} (hr : s.resetn = true) {frame : List Byte} {effect : ReplyEffect}
    (ht : s.lp.transmitter = .send frame effect) :
    exec .replyEnd s = .next ((s.onLp fun l => { l with transmitter := .idle }).replyEffect effect) := by
  refine congrArg Host.Outcome.next ((State.whenRunning_true s _ hr).trans ?_)
  simp only [State.replyEnds, ht]

theorem CompletionUnit.restarted_eq (u : CompletionUnit) : u.restarted = ⟨mapIx (fun _ t => if t.state = .busy then
    { t with state := .cooling, owner := none, timer := .coolDown (Config.ms t.timeout) } else t) u.tags⟩ := by
  simp only [CompletionUnit.restarted, beq_iff_eq]
  rfl

theorem RetentionUnit.invalidate_all (u : RetentionUnit) :
    u.invalidate (fun _ => true) = ⟨mapIx (fun _ b => if b.valid then Buffer.invalid else b) u.buffers, []⟩ := by
  simp [RetentionUnit.invalidate]

/-- Settles O8. -/
theorem repliesGoOut : Obligations.RepliesGoOut := by
  unfold Obligations.RepliesGoOut
  refine ⟨fun s h hr ht => ?_, fun s frame hr => ⟨fun ht => exec_replyEnd hr ht, fun ht => exec_replyEnd hr ht, fun ht => ?_⟩⟩
  · have hears : s.lp.hears = true := by simp [LinePort.hears, ht]
    rw [exec_turnaround hr ht]
    refine ⟨fun ha => ?_, fun bytes ha => ?_⟩
    · rw [State.breakFrame_of_hunt ha]
      rfl
    · rw [State.breakFrame_inFrame hears ha]
      rfl
  · rw [exec_replyEnd hr ht, State.replyEffect, State.restarted_eq]
    simp only [CompletionUnit.restarted_eq, RetentionUnit.invalidate_all]
    rfl

end Sys2Proof.Machine
end


section
/-! Requests: what the Last Reply Record and the form check answer (O9), resolution (O10), refusals (O11), the acceptance of exchanges
(O12), retention hits (O13), held xnos (O14), results delivered (O15), and pushes (O16). -/

namespace Sys2Proof.Machine

/-! ### Details and payloads (R182) -/

theorem beBytes_two (v : Nat) : beBytes 2 v = [BitVec.ofNat 8 (v / 256), BitVec.ofNat 8 v] := rfl

/-- A number stands in the two bytes of a detail as it does in two bytes. -/
theorem beBytes_detail (n : Nat) : beBytes 2 (BitVec.ofNat 16 n).toNat = beBytes 2 n := by
  rw [beBytes_two, beBytes_two, BitVec.toNat_ofNat]
  congr 1
  · apply BitVec.eq_of_toNat_eq
    simp only [BitVec.toNat_ofNat]
    omega
  · congr 1
    apply BitVec.eq_of_toNat_eq
    simp only [BitVec.toNat_ofNat]
    omega

theorem detailOf_eq (high low : Nat) : detailOf high low = BitVec.ofNat 16 (high * 256 + low) := rfl

theorem detailOf_zero (low : Nat) : detailOf 0 low = BitVec.ofNat 16 low := by rw [detailOf_eq, Nat.zero_mul, Nat.zero_add]

/-- The two bytes of a detail that is made of two bytes. -/
theorem beBytes_detailOf {high low : Nat} (hl : low < 256) :
    beBytes 2 (detailOf high low).toNat = [BitVec.ofNat 8 high, BitVec.ofNat 8 low] := by
  rw [detailOf_eq, beBytes_detail, beBytes_two]
  have hh : (high * 256 + low) / 256 = high := by omega
  have hlow : BitVec.ofNat 8 (high * 256 + low) = BitVec.ofNat 8 low := by
    apply BitVec.eq_of_toNat_eq
    simp only [BitVec.toNat_ofNat]
    omega
  rw [hh, hlow]

/-! ### Answers (R10, R13) -/

section
variable (s : State) (l : LinePort) (r : LineRequest) (kind : ReplyKind) (payload : List Byte) (effect : ReplyEffect)

theorem State.answer_stored : s.answer r kind payload true effect = { s with lp := s.lp.givesStored r kind payload effect } := rfl

theorem State.answer_unstored : s.answer r kind payload false .nothing = { s with lp := s.lp.gives r kind payload } := rfl

theorem State.answerFault_eq (e : FaultCode × BitVec 16) :
    s.answerFault r e = { s with lp := s.lp.givesStored r .fault (e.1.code :: beBytes 2 e.2.toNat) .nothing } := rfl

theorem State.answerBusy_eq (code : Byte) :
    s.answerBusy r code = { s with lp := s.lp.gives r .busy [code], mu := s.mu.counts .busySent 1 } := rfl

end

/-! ### The record and the form (R9, R14) -/

/-- An addressed request that the record answers (R14). -/
theorem exec_replayed {s : State} {r : LineRequest} {l : LinePort} {reply : LineReply} (h : s.Takes r l) (hb : r.broadcast = false)
    (hreply : s.replayFor r = some reply) : exec r.command s = .next { s with lp := { l with transmitter := .wait (some ⟨reply, .nothing⟩) } } := by
  rw [exec_command h (.inl hb)]
  simp only [hb, Bool.false_eq_true, if_false, State.addressedRequest, State.replayFor_of_take h.2, hreply]
  rfl

/-- An addressed request of the wrong form (R9). -/
theorem exec_malformed {s : State} {r : LineRequest} {l : LinePort} (h : s.Takes r l) (hb : r.broadcast = false)
    (hreply : s.replayFor r = none) (hw : r.wellFormed = false) :
    exec r.command s = .next ((s.onLp fun _ => l).answerMalformed r) := by
  rw [exec_command h (.inl hb)]
  simp only [hb, Bool.false_eq_true, if_false, State.addressedRequest, State.replayFor_of_take h.2, hreply, hw]

/-- A broadcast PUSH (R16). -/
theorem exec_broadcast {s : State} {r : LineRequest} {l : LinePort} (h : s.Takes r l) (hb : r.broadcast = true) (hk : r.kind = .push) :
    exec r.command s = .next ((s.onLp fun _ => l).broadcastRequest r) := by
  rw [exec_command h (.inr hk), if_pos hb]

theorem malformedPayload (n : Nat) : faultPayload .malformed (detailOf 0 n) = 0x01 :: beBytes 2 n := by
  rw [faultPayload, detailOf_zero, beBytes_detail]
  rfl

theorem State.answerMalformed_stored {s : State} {r : LineRequest} (hk : r.kind ≠ .poll) : s.answerMalformed r = { s with
    lp := s.lp.givesStored r .fault (0x01 :: beBytes 2 r.payload.length) .nothing, mu := s.mu.counts .lineMalformed 1 } := by
  rw [State.answerMalformed, malformedPayload, show (r.kind != .poll) = true from bne_iff_ne.2 hk]
  rfl

theorem State.answerMalformed_poll {s : State} {r : LineRequest} (hk : r.kind = .poll) : s.answerMalformed r = { s with
    lp := s.lp.gives r .fault (0x01 :: beBytes 2 r.payload.length), mu := s.mu.counts .lineMalformed 1 } := by
  rw [State.answerMalformed, malformedPayload, hk]
  rfl

/-- Settles O9. -/
theorem repeatsAndMalformedAreAnswered : Obligations.RepeatsAndMalformedAreAnswered := by
  unfold Obligations.RepeatsAndMalformedAreAnswered
  refine ⟨fun s l r reply h hb hk hlast => exec_replayed h hb (by simp [State.replayFor, LinePort.replay, hk, hlast]),
    fun s l r h => ⟨fun hb hreply hw hk => ?_, fun hb hw hk => ?_, fun hb hk hw => ?_, fun hb hk hw hu => ?_⟩⟩
  · rw [exec_malformed h hb hreply hw, State.answerMalformed_stored hk]
    rfl
  · rw [exec_malformed h hb (by simp [State.replayFor, hk]) hw, State.answerMalformed_poll hk]
    rfl
  · rw [exec_broadcast h hb hk, State.broadcastRequest, if_pos hw]
    rfl
  · rw [exec_broadcast h hb hk, State.broadcastRequest, if_neg (by simp [hw]), if_pos hu]
    rfl

/-! ### Resolution (R45 to R48) -/

theorem State.resolve_none {s : State} (kind : WorkKind) {unit : Byte} (offset length : Nat)
    (h : ∀ j : WinIx, (look s.tu.windows j).covers unit = false) :
    s.resolve kind unit offset length = .error (.noWindow, detailOf 0 unit.toNat) := by
  simp only [State.resolve, TranslationUnit.windowFor, firstIx_none.2 h]

theorem Window.rights_eq (w : Window) :
    w.rights = BitVec.ofNat 8 ((if w.rightR then 1 else 0) + (if w.rightW then 2 else 0) + (if w.rightP then 4 else 0)) := by
  unfold Window.rights bitAt
  cases w.rightR <;> cases w.rightW <;> cases w.rightP <;> rfl

theorem Window.covers_iff (w : Window) (unit : Byte) : w.covers unit = true ↔
    w.valid = true ∧ w.firstUnit.toNat ≤ unit.toNat ∧ unit.toNat ≤ w.lastUnit.toNat := by
  simp [Window.covers, and_assoc]

theorem linkDetail_eq : linkDetail = 0x0005 := rfl

/-- Settles O10. -/
theorem resolutionChecksInOrder : Obligations.ResolutionChecksInOrder := by
  unfold Obligations.ResolutionChecksInOrder
  refine ⟨fun s kind unit offset length => ⟨fun h => ?_, fun i hcovers hlow => ?_⟩, Window.covers_iff,
    fun w => ⟨rfl, rfl, rfl, w.rights_eq⟩⟩
  · rw [State.resolve_none kind offset length h, detailOf_zero]
  · have found : s.tu.windowFor unit = some i := firstIx_some.2 ⟨hcovers, hlow⟩
    simp only [State.resolve, found, detailOf_eq, Nat.zero_mul, Nat.zero_add, Nat.add_zero, linkDetail_eq, Window.addressOf]

/-! ### Routing (R15, R20 to R24) -/

/-- The kind of exchange a request asks for. -/
def LineRequest.Asks (r : LineRequest) (kind : ExchangeKind) : Prop :=
  kind = .read ∧ r.kind = .read ∨ kind = .write ∧ r.kind = .write

theorem LineRequest.exists_asks {r : LineRequest} (h : r.kind = .read ∨ r.kind = .write) : ∃ kind, r.Asks kind := by
  rcases h with h | h
  · exact ⟨.read, .inl ⟨rfl, h⟩⟩
  · exact ⟨.write, .inr ⟨rfl, h⟩⟩

section
variable {s : State} {l : LinePort} {r : LineRequest} {kind : ExchangeKind}

theorem exec_exchange (h : s.TakesNew r l) (hk : r.Asks kind) (hu : r.unit ≠ 0) :
    exec r.command s = .next ((s.onLp fun _ => l).exchangeRequest r kind) := by
  rw [exec_command_new h]
  rcases hk with ⟨rfl, hk⟩ | ⟨rfl, hk⟩ <;> simp only [State.route, hk, if_neg hu]

theorem exec_push (h : s.TakesNew r l) (hk : r.kind = .push) (hu : r.unit ≠ 0) :
    exec r.command s = .next ((s.onLp fun _ => l).pushRequest r) := by
  rw [exec_command_new h]
  simp only [State.route, hk, if_neg hu]

theorem State.exchangeRequest_new (h : ∀ j, (s.record j).state = .free ∨ (s.record j).xno ≠ r.xno) :
    s.exchangeRequest r kind = s.newRequest r kind := by
  obtain ⟨hlive, hanswered⟩ := ExchangeUnit.holders_none h
  simp only [State.exchangeRequest, hlive, hanswered]

theorem State.exchangeRequest_live {i : RecIx} (hlive : (s.record i).live = true) (hx : (s.record i).xno = r.xno)
    (hlow : ∀ j, j < i → (s.record j).live = false ∨ (s.record j).xno ≠ r.xno) : s.exchangeRequest r kind = s.meetLive r i := by
  have found : s.xu.liveHolder r.xno = some i := by
    refine firstIx_some.2 ⟨by simpa using ⟨hlive, hx⟩, fun j hj => ?_⟩
    rcases hlow j hj with h | h <;> simp only [State.record] at h <;> simp [h]
  simp only [State.exchangeRequest, found]

/-- The one record with the xno is ANSWERED (R21, R27). -/
theorem State.exchangeRequest_answered {i : RecIx} (hs : (s.record i).state = .answered) (hx : (s.record i).xno = r.xno)
    (hother : ∀ j, j ≠ i → (s.record j).state = .free ∨ (s.record j).xno ≠ r.xno) : s.exchangeRequest r kind =
      if (s.record i).signature = r.signature then (s.replayAnswered i).answerResult r i else (s.freeRecord i).newRequest r kind := by
  have notLive : s.xu.liveHolder r.xno = none := by
    refine firstIx_none.2 fun j => ?_
    by_cases hj : j = i
    · subst hj
      simp only [State.record] at hs
      simp [Exchange.live, hs]
    · rcases hother j hj with h | h <;> simp only [State.record] at h <;> simp [Exchange.live, h]
  have found : s.xu.answeredHolder r.xno = some i := by
    refine firstIx_some.2 ⟨by simpa using ⟨hs, hx⟩, fun j hj => ?_⟩
    rcases hother j hj.ne with h | h <;> simp only [State.record] at h <;> simp [h]
  simp only [State.exchangeRequest, notLive, found]

/-- A request that does not resolve (R22). -/
theorem State.newRequest_refused {e : FaultCode × BitVec 16} (h : s.resolve kind.work r.unit r.offset (r.length kind) = .error e) :
    s.newRequest r kind = s.answerFault r e := by
  simp only [State.newRequest, h]

theorem State.newRequest_hit {res : Resolution} {b : BufIx} (h : s.resolve kind.work r.unit r.offset (r.length kind) = .ok res)
    (hit : s.retentionHit kind res (r.length kind) = some b) : s.newRequest r kind = s.answerHit r res (r.length kind) b := by
  simp only [State.newRequest, h, hit]

theorem State.newRequest_miss {res : Resolution} (h : s.resolve kind.work r.unit r.offset (r.length kind) = .ok res)
    (hmiss : s.retentionHit kind res (r.length kind) = none) : s.newRequest r kind = s.allocate r kind res (r.length kind) := by
  simp only [State.newRequest, h, hmiss]

theorem State.retentionHit_none {res : Resolution} {length : Nat}
    (h : kind = .read → res.retain = true → s.ru.hit res.window res.addr length = none) : s.retentionHit kind res length = none := by
  unfold State.retentionHit
  split
  · next hk => exact h hk.1 hk.2
  · rfl

end

/-- The resolution and the retention miss as the statements write them, by the kind of the request. -/
theorem LineRequest.resolves {s : State} {r : LineRequest} {x : Except (FaultCode × BitVec 16) Resolution}
    (h : r.kind = .read ∧ s.resolve .read r.unit r.offset r.readLength = x
      ∨ r.kind = .write ∧ s.resolve .write r.unit r.offset r.data.length = x) :
    ∃ kind, r.Asks kind ∧ s.resolve kind.work r.unit r.offset (r.length kind) = x := by
  rcases h with ⟨hk, h⟩ | ⟨hk, h⟩
  · exact ⟨.read, .inl ⟨rfl, hk⟩, h⟩
  · exact ⟨.write, .inr ⟨rfl, hk⟩, h⟩

/-- With every record live there is none to take (R24). -/
theorem State.allocate_busy {s : State} (r : LineRequest) (kind : ExchangeKind) (res : Resolution) (length : Nat)
    (h : ∀ j, (s.record j).state ≠ .free) (ha : s.xu.answerOrder = []) : s.allocate r kind res length = s.answerBusy r 1 := by
  have none_free : s.xu.allocation = none := by
    rw [ExchangeUnit.allocation, firstIx_none.2 fun j => beq_eq_false_iff_ne.2 (show (look s.xu.records j).state ≠ .free from h j), ha]
    rfl
  simp only [State.allocate, none_free]

theorem Exchange.live_ne_free {e : Exchange} (h : e.live = true) : e.state ≠ .free := by
  intro hf
  simp [Exchange.live, hf] at h

/-- Settles O11. -/
theorem refusedOrBusyLeavesNoTrace : Obligations.RefusedOrBusyLeavesNoTrace := by
  unfold Obligations.RefusedOrBusyLeavesNoTrace
  refine ⟨fun s l r code detail h => ⟨fun hu hnew herr => ?_, fun hu hk => ?_⟩, fun s l r res h hu hlive hanswered hres => ?_⟩
  · have exchange (herr : r.kind = .read ∧ s.resolve .read r.unit r.offset r.readLength = .error (code, detail)
        ∨ r.kind = .write ∧ s.resolve .write r.unit r.offset r.data.length = .error (code, detail)) :
        exec r.command s = .next { s with lp := l.givesStored r .fault (code.code :: beBytes 2 detail.toNat) .nothing } := by
      obtain ⟨kind, hk, hres⟩ := LineRequest.resolves herr
      have hpush : r.kind ≠ .push := by rcases hk with ⟨-, hk⟩ | ⟨-, hk⟩ <;> simp [hk]
      rw [exec_exchange h hk hu, State.exchangeRequest_new (s := s.onLp _) (hnew.resolve_left hpush),
        State.newRequest_refused (s := s.onLp _) hres]
      rfl
    rcases herr with herr | herr | ⟨hk, herr⟩
    · exact exchange (.inl herr)
    · exact exchange (.inr herr)
    · rw [exec_push h hk hu]
      simp only [State.pushRequest, State.onLp_resolve, herr]
      rfl
  · rw [exec_command_new h]
    simp only [State.route, hk, if_pos hu]
    rfl
  · have hmiss (kind : ExchangeKind) (hk : r.Asks kind) : s.retentionHit kind res (r.length kind) = none := by
      refine State.retentionHit_none fun hr hretain => ?_
      rcases hres with ⟨-, -, hmiss⟩ | ⟨hw, -⟩
      · subst hr
        exact hmiss hretain
      · rcases hk with ⟨-, hk⟩ | ⟨hk, -⟩
        · simp [hk] at hw
        · simp [hk] at hr
    obtain ⟨kind, hk, hok⟩ := LineRequest.resolves (x := .ok res) (hres.imp (fun ⟨hk, hok, _⟩ => ⟨hk, hok⟩) id)
    rw [exec_exchange h hk hu, State.exchangeRequest_new (s := s.onLp _) fun j => .inr (hlive j).2,
      State.newRequest_miss (s := s.onLp _) hok (hmiss kind hk),
      State.allocate_busy (s := s.onLp _) _ _ _ _ (fun j => Exchange.live_ne_free (hlive j).1) hanswered]
    rfl

/-! ### Acceptance of an exchange (R24, R25) -/

theorem State.acceptExchange_read (r : LineRequest) (res : Resolution) (length : Nat) (i : RecIx) (s : State) :
    s.acceptExchange r .read res length i = State.arbitrate { s with
      lp := s.lp.gives r .held [0]
      ia := { s.ia with orderList := s.ia.orderList ++ [.exchange i] }
      xu := ⟨put s.xu.records i (newExchange r .read res length), s.xu.answerOrder.filter (· != i)⟩ } := by
  simp only [State.acceptExchange, State.freeRecord, State.setRecord, State.onXu, put_put, reduceCtorEq, if_false]
  rfl

theorem State.acceptExchange_write (r : LineRequest) (res : Resolution) (length : Nat) (i : RecIx) (s : State) :
    s.acceptExchange r .write res length i = State.arbitrate { s with
      lp := s.lp.gives r .held [0]
      ia := { s.ia with orderList := s.ia.orderList ++ [.exchange i] }
      ru := s.ru.invalidate fun b => b.overlaps res.slot res.addr length
      xu := ExchangeUnit.void (fun e => e.fetchOverlaps res.slot res.addr length)
        ⟨put s.xu.records i (newExchange r .write res length), s.xu.answerOrder.filter (· != i)⟩ } := by
  simp only [State.acceptExchange, State.freeRecord, State.setRecord, State.onXu, put_put, if_true, State.writeAccepted, State.onRu]
  rfl

theorem newExchange_read (r : LineRequest) (res : Resolution) (length : Nat) : newExchange r .read res length = {
    state := .queued, xno := r.xno, kind := .read, signature := r.signature
    window := res.window, relaxed := res.relaxed, slot := res.slot, addr := res.addr
    requestedLength := length
    issueLength := if res.retain then min (min (length + 16 * res.depth) 256) res.room else length
    payload := []
    readBuffer := List.replicate (if res.retain then min (min (length + 16 * res.depth) 256) res.room else length) 0
    retain := if res.retain then some true else none
    nextOffset := 0, piecesIssued := 0, outstanding := 0, abandoned := false, result := .pending, holdTimer := none
    leftUp := false } := by
  simp only [newExchange, fetchLength, reduceCtorEq, if_false, if_true, true_and]

theorem newExchange_write (r : LineRequest) (res : Resolution) (length : Nat) : newExchange r .write res length = {
    state := .queued, xno := r.xno, kind := .write, signature := r.signature
    window := res.window, relaxed := res.relaxed, slot := res.slot, addr := res.addr
    requestedLength := length, issueLength := length, payload := r.data, readBuffer := [], retain := none
    nextOffset := 0, piecesIssued := 0, outstanding := 0, abandoned := false, result := .pending, holdTimer := none
    leftUp := false } := by
  simp only [newExchange, fetchLength, reduceCtorEq, if_false, if_true, false_and]

theorem State.allocate_some {s : State} (r : LineRequest) (kind : ExchangeKind) (res : Resolution) (length : Nat) {i : RecIx}
    (h : (s.record i).state = .free ∧ (∀ j, j < i → (s.record j).state ≠ .free)
      ∨ (∀ j, (s.record j).state ≠ .free) ∧ s.xu.answerOrder.head? = some i) :
    s.allocate r kind res length = s.acceptExchange r kind res length i := by
  simp only [State.allocate, ExchangeUnit.allocation_eq h]

theorem Buffer.overlaps_iff (b : Buffer) (slot : SlotIx) (addr : FabricAddr) (length : Nat) : b.overlaps slot addr length = true ↔
    b.slot = slot ∧ ∃ a : Nat, b.addr.toNat ≤ a ∧ a < b.addr.toNat + b.data.length ∧ addr.toNat ≤ a ∧ a < addr.toNat + length := by
  rw [Buffer.overlaps, Bool.and_eq_true, beq_iff_eq, rangesOverlap_iff]

theorem Exchange.fetchOverlaps_iff (e : Exchange) (slot : SlotIx) (addr : FabricAddr) (length : Nat) :
    e.fetchOverlaps slot addr length = true ↔
      e.slot = slot ∧ ∃ a : Nat, e.addr.toNat ≤ a ∧ a < e.addr.toNat + e.issueLength ∧ addr.toNat ≤ a ∧ a < addr.toNat + length := by
  rw [Exchange.fetchOverlaps, Bool.and_eq_true, beq_iff_eq, rangesOverlap_iff]

theorem RetentionUnit.invalidate_eq (u : RetentionUnit) (p : Buffer → Bool) : u.invalidate p = {
    buffers := mapIx (fun _ b => if b.valid = true ∧ p b = true then Buffer.invalid else b) u.buffers
    useOrder := u.useOrder.filter fun i => !p (look u.buffers i) } := by
  simp only [RetentionUnit.invalidate, Bool.and_eq_true]

theorem ExchangeUnit.void_eq (u : ExchangeUnit) (p : Exchange → Bool) : u.void p = { u with
    records := mapIx (fun _ e =>
      if (e.state = .queued ∨ e.state = .active) ∧ e.kind = .read ∧ e.retain = some true ∧ p e = true then
        { e with retain := some false }
      else e) u.records } := by
  simp only [ExchangeUnit.void, Bool.and_eq_true, Exchange.inWork_iff, beq_iff_eq, and_assoc]

/-- Settles O12. -/
theorem exchangesAreAccepted : Obligations.ExchangesAreAccepted := by
  unfold Obligations.ExchangesAreAccepted
  refine ⟨fun s l r res i h hk hu hnew hok hmiss hfree => ?_, fun s l r res i h hk hu hnew hok hfree => ?_, Buffer.overlaps_iff,
    Exchange.fetchOverlaps_iff, RetentionUnit.invalidate_eq, ExchangeUnit.void_eq⟩
  · rw [exec_exchange h (.inl ⟨rfl, hk⟩) hu, State.exchangeRequest_new (s := s.onLp _) hnew,
      State.newRequest_miss (s := s.onLp _) (kind := .read) hok (State.retentionHit_none fun _ => hmiss),
      State.allocate_some (s := s.onLp _) _ _ _ _ hfree, State.acceptExchange_read, newExchange_read]
    rfl
  · rw [exec_exchange h (.inr ⟨rfl, hk⟩) hu, State.exchangeRequest_new (s := s.onLp _) hnew,
      State.newRequest_miss (s := s.onLp _) (kind := .write) hok (State.retentionHit_none nofun),
      State.allocate_some (s := s.onLp _) _ _ _ _ hfree, State.acceptExchange_write, newExchange_write]
    rfl

/-! ### Retention hits (R23, R121) -/

theorem Buffer.contains_iff (b : Buffer) (window : WinIx) (addr : FabricAddr) (length : Nat) : b.contains window addr length = true ↔
    b.valid = true ∧ b.window = window ∧ b.addr.toNat ≤ addr.toNat ∧ addr.toNat + length ≤ b.addr.toNat + b.data.length := by
  simp [Buffer.contains, and_assoc]

/-- The buffer of the highest use rank among those that contain the request. -/
theorem RetentionUnit.hit_eq {u : RetentionUnit} {window : WinIx} {addr : FabricAddr} {length : Nat} {older newer : List BufIx} {b : BufIx}
    (horder : u.useOrder = older ++ b :: newer) (hb : (look u.buffers b).contains window addr length = true)
    (hnewer : ∀ c ∈ newer, (look u.buffers c).contains window addr length = false) : u.hit window addr length = some b := by
  rw [RetentionUnit.hit, horder, List.reverse_append, List.reverse_cons, List.append_assoc, List.find?_append,
    List.find?_eq_none.2 (by simpa using hnewer)]
  simp [hb]

theorem RetentionUnit.touch_eq {u : RetentionUnit} {older newer : List BufIx} {b : BufIx} (interval : Nat)
    (horder : u.useOrder = older ++ b :: newer) (holder : b ∉ older) (hnewer : b ∉ newer) : u.touch b interval =
      ⟨put u.buffers b { look u.buffers b with timer := some interval }, older ++ newer ++ [b]⟩ := by
  have keeps (list : List BufIx) (h : b ∉ list) : list.filter (· != b) = list :=
    List.filter_eq_self.2 fun c hc => by simpa using fun hcb : c = b => h (hcb ▸ hc)
  rw [RetentionUnit.touch, horder, List.filter_append, List.filter_cons_of_neg (by simp), keeps older holder, keeps newer hnewer]

/-- Settles O13. -/
theorem retentionHitAnswers : Obligations.RetentionHitAnswers := by
  unfold Obligations.RetentionHitAnswers
  refine ⟨fun s l r res older newer b h hk hu hnew hok hretain horder holder hnewer hcontains hothers => ?_, Buffer.contains_iff⟩
  have hit : (s.onLp fun _ => l).retentionHit .read res r.readLength = some b := by
    rw [State.retentionHit, if_pos ⟨rfl, hretain⟩]
    exact RetentionUnit.hit_eq horder hcontains hothers
  rw [exec_exchange h (.inl ⟨rfl, hk⟩) hu, State.exchangeRequest_new (s := s.onLp _) hnew,
    State.newRequest_hit (s := s.onLp _) (kind := .read) hok hit, ← RetentionUnit.touch_eq _ horder holder hnewer]
  rfl

/-! ### Held xnos (R20, R21, R26, R27) -/

theorem ExchangeState.code_lt (st : ExchangeState) : st.code < 256 := by cases st <;> decide

theorem ExchangeKind.code_lt (kind : ExchangeKind) : kind.code < 256 := by cases kind <;> decide

/-- Settles O14. -/
theorem heldXnoAnswers : Obligations.HeldXnoAnswers := by
  unfold Obligations.HeldXnoAnswers
  refine ⟨fun s l r i h hu hk hx hlow => ?_, fun s l r i e h hu hs hx hsig hother herr => ?_, ?_⟩
  · obtain ⟨kind, hk⟩ := LineRequest.exists_asks hk
    have met (hlive : (s.record i).live = true) : exec r.command s = .next ((s.onLp fun _ => l).meetLive r i) := by
      rw [exec_exchange h hk hu, State.exchangeRequest_live (s := s.onLp _) hlive hx hlow]
    refine ⟨fun hs hsig => ?_, fun hs hsig => ?_, fun hlive hsig => ?_⟩
    · rw [met (by simp [Exchange.live, hs])]
      simp only [State.meetLive, State.onLp_record, if_pos hsig, hs]
      rfl
    · rw [met (by simp [Exchange.live, hs])]
      simp only [State.meetLive, State.onLp_record, if_pos hsig, hs]
      rfl
    · rw [met hlive]
      simp only [State.meetLive, State.onLp_record, if_neg hsig, State.answerFault_eq,
        beBytes_detailOf (ExchangeKind.code_lt _)]
      rfl
  · obtain ⟨kind, hk, hres⟩ := LineRequest.resolves herr
    rw [exec_exchange h hk hu, State.exchangeRequest_answered (s := s.onLp _) hs hx hother, State.onLp_record, if_neg hsig,
      State.newRequest_refused (s := State.freeRecord i (s.onLp _)) hres]
    rfl
  · rintro s t l r i h hu hk hs hx hsig hother rfl
    have freed (j : RecIx) : ((s.freeRecord i).record j).state = .free ∨ ((s.freeRecord i).record j).xno ≠ r.xno := by
      by_cases hj : j = i
      · subst hj
        exact .inl (by rw [State.record_freeRecord_same]; rfl)
      · rw [State.record_freeRecord_other (Ne.symm hj)]
        exact hother j hj
    obtain ⟨kind, hk⟩ := LineRequest.exists_asks hk
    show exec r.command s = exec r.command (s.freeRecord i) ∧ (s.freeRecord i).TakesNew r l ∧ _
    refine ⟨?_, h, freed⟩
    rw [exec_exchange h hk hu, exec_exchange (s := s.freeRecord i) h hk hu,
      State.exchangeRequest_answered (s := s.onLp _) hs hx hother, State.onLp_record, if_neg hsig,
      State.exchangeRequest_new (s := (s.freeRecord i).onLp _) freed]
    rfl

/-- The reply that a result calls for (R26). -/
theorem Exchange.resultReply_eq {e : Exchange} {kind : ReplyKind} {payload : List Byte}
    (h : (∃ code detail, e.result = .fault code detail ∧ kind = .fault ∧ payload = code.code :: beBytes 2 detail.toNat)
      ∨ (e.result = .ok ∧ e.kind = .read ∧ kind = .data ∧ payload = e.readBuffer.take e.requestedLength)
      ∨ (e.result = .ok ∧ e.kind = .write ∧ kind = .done ∧ payload = [])) : e.resultReply = (kind, payload) := by
  rcases h with ⟨code, detail, hr, rfl, rfl⟩ | ⟨hr, hk, rfl, rfl⟩ | ⟨hr, hk, rfl, rfl⟩
  · simp only [Exchange.resultReply, hr]
    rfl
  · simp only [Exchange.resultReply, hr, hk]
  · simp only [Exchange.resultReply, hr, hk]

/-- The result of a record, as a reply that is not stored. -/
theorem State.answerResult_eq {s : State} {r : LineRequest} {i : RecIx} {kind : ReplyKind} {payload : List Byte}
    (h : (s.record i).resultReply = (kind, payload)) : s.answerResult r i = { s with lp := s.lp.gives r kind payload } := by
  rw [State.answerResult, h]
  rfl

/-- Settles O15. -/
theorem resultIsDelivered : Obligations.ResultIsDelivered := by
  unfold Obligations.ResultIsDelivered
  intro s l r i h hu hk hx hsig hother kind payload hresult
  obtain ⟨ekind, hk⟩ := LineRequest.exists_asks hk
  have reply := Exchange.resultReply_eq hresult
  refine ⟨fun hs hnot => ?_, fun hs => ?_⟩
  · have hlow (j : RecIx) (hj : j < i) : (s.record j).live = false ∨ (s.record j).xno ≠ r.xno :=
      (hother j hj.ne).imp (fun hf => by simp [Exchange.live, hf]) id
    have delivered : (State.deliver i (s.onLp fun _ => l)).record i
        = { s.record i with state := .answered, holdTimer := some (Config.ms s.mu.settings.hold) } := by
      simp [State.deliver, State.record, State.onXu, State.onLp, State.holdInterval]
    have ranks : s.xu.answerOrder.filter (· != i) = s.xu.answerOrder :=
      List.filter_eq_self.2 fun j hj => by simpa using fun hji : j = i => hnot (hji ▸ hj)
    rw [exec_exchange h hk hu, State.exchangeRequest_live (s := s.onLp _) (by simp [Exchange.live, hs]) hx hlow, State.meetLive]
    simp only [State.onLp_record, if_pos hsig, hs]
    rw [State.answerResult_eq ((congrArg Exchange.resultReply delivered).trans reply), ← ranks]
    rfl
  · have replayed : (State.replayAnswered i (s.onLp fun _ => l)).record i
        = { s.record i with holdTimer := some (Config.ms s.mu.settings.hold) } := by
      simp [State.replayAnswered, State.holdInterval]
    rw [exec_exchange h hk hu, State.exchangeRequest_answered (s := s.onLp _) hs hx hother, State.onLp_record, if_pos hsig,
      State.answerResult_eq ((congrArg Exchange.resultReply replayed).trans reply)]
    rfl

/-! ### Pushes (R68 to R71) -/

theorem PushQueue.admits_iff (q : PushQueue) (length : Nat) :
    q.admits length = true ↔ q.pushes.length ≤ 15 ∧ q.bytesHeld + length ≤ 1024 := by
  rw [PushQueue.admits, Bool.and_eq_true, decide_eq_true_eq, decide_eq_true_eq]
  show _ + 1 ≤ 16 ∧ _ ≤ 1024 ↔ _
  omega

/-- A request that resolves names a slot that is not QUIET (R46). -/
theorem State.resolve_notQuiet {s : State} {kind : WorkKind} {unit : Byte} {offset length : Nat} {res : Resolution}
    (h : s.resolve kind unit offset length = .ok res) : (look s.tu.nodes res.slot).state ≠ .quiet := by
  unfold State.resolve at h
  split at h
  · cases h
  · simp only at h
    split at h
    · cases h
    · split at h
      · cases h
      · split at h
        · cases h
        · next hq =>
          split at h
          · cases h
          · cases h; exact hq

/-- A push that resolves is queued and ordered at the tail; were it the head, its slot is not QUIET (R70, R75). -/
theorem State.acceptPush_eq {s : State} {r : LineRequest} {res : Resolution} (hq : (look s.tu.nodes res.slot).state ≠ .quiet) :
    s.acceptPush r res = State.arbitrate { s with
      pq := ⟨s.pq.pushes ++ [⟨res.window, res.slot, res.addr, r.data, 0, r.broadcast⟩]⟩
      ia := { s.ia with orderList := s.ia.orderList ++ [.push] }
      ru := s.ru.invalidate fun b => b.overlaps res.slot res.addr r.data.length
      xu := s.xu.void fun e => e.fetchOverlaps res.slot res.addr r.data.length } := by
  unfold State.acceptPush
  simp only
  congr 1
  split
  · next hnil =>
    refine State.testHead_eq_self ?_
    simpa [State.headQuiet, State.writeAccepted, State.onIa, State.onXu, State.onRu, State.onPq, hnil] using hq
  · rfl

/-- Settles O16. -/
theorem pushIsQueued : Obligations.PushIsQueued := by
  unfold Obligations.PushIsQueued
  refine ⟨fun s l r res h hk hw hu hok => ?_, fun s l r e h hb hk hw hu herr => ?_, Buffer.overlaps_iff, Exchange.fetchOverlaps_iff⟩
  · have quiet := State.resolve_notQuiet hok
    have addressed (hb : r.broadcast = false) (hreply : s.replayFor r = none) : exec r.command s =
        .next (if s.pq.admits r.data.length then State.acceptPush r res { s with lp := l.givesStored r .done [] .nothing }
          else { s with lp := l.gives r .busy [2], mu := s.mu.counts .busySent 1 }) := by
      rw [exec_push ⟨h, hb, hw, hreply⟩ hk hu]
      simp only [State.pushRequest, State.onLp_resolve, hok]
      rfl
    have broadcast (hb : r.broadcast = true) : exec r.command s =
        .next (if s.pq.admits r.data.length then State.acceptPush r res { s with lp := l }
          else { s with lp := l, mu := s.mu.counts .broadcastDropped 1 }) := by
      rw [exec_broadcast h hb hk, State.broadcastRequest, if_neg (by simp [hw]), if_neg hu]
      simp only [State.pushBroadcast, State.onLp_resolve, hok]
      rfl
    refine ⟨fun hplaces hbytes line hline => ?_, fun hfull => ?_⟩
    · have fits := (PushQueue.admits_iff s.pq r.data.length).2 ⟨hplaces, hbytes⟩
      rcases hline with ⟨hb, rfl⟩ | ⟨hb, hreply, rfl⟩
      · rw [broadcast hb, if_pos fits]
        exact congrArg Host.Outcome.next (State.acceptPush_eq (s := { s with lp := line }) quiet)
      · rw [addressed hb hreply, if_pos fits]
        exact congrArg Host.Outcome.next (State.acceptPush_eq (s := { s with lp := l.givesStored r .done [] .nothing }) quiet)
    · have full : ¬s.pq.admits r.data.length = true := by
        rw [PushQueue.admits_iff]
        omega
      exact ⟨fun hb hreply => by rw [addressed hb hreply, if_neg full], fun hb => by rw [broadcast hb, if_neg full]⟩
  · rw [exec_broadcast h hb hk, State.broadcastRequest, if_neg (by simp [hw]), if_neg hu]
    simp only [State.pushBroadcast, State.onLp_resolve, herr]
    rfl

end Sys2Proof.Machine
end


section
/-! The management space read (O19). -/

namespace Sys2Proof.Machine

/-! ### Bytes of numbers and flags -/

theorem beBytes_two_pow (v : Nat) : beBytes 2 v = [BitVec.ofNat 8 (v / 2 ^ 8), BitVec.ofNat 8 v] := rfl

theorem beBytes_four (v : Nat) : beBytes 4 v = [BitVec.ofNat 8 (v / 2 ^ 24), BitVec.ofNat 8 (v / 2 ^ 16), BitVec.ofNat 8 (v / 2 ^ 8),
    BitVec.ofNat 8 v] := by
  simp only [beBytes, Nat.div_div_eq_div_mul]
  rfl

theorem beBytes_five (v : Nat) : beBytes 5 v = [BitVec.ofNat 8 (v / 2 ^ 32), BitVec.ofNat 8 (v / 2 ^ 24), BitVec.ofNat 8 (v / 2 ^ 16),
    BitVec.ofNat 8 (v / 2 ^ 8), BitVec.ofNat 8 v] := by
  simp only [beBytes, Nat.div_div_eq_div_mul]
  rfl

theorem bitAt_eq (b : Bool) (k : Nat) : bitAt b k = BitVec.ofNat 8 (if b then 2 ^ k else 0) := by cases b <;> rfl

/-! ### What a read returns, by region (R170 to R174, R184, R185) -/

theorem Window.image_eq (w : Window) : w.image = if w.valid = false then List.replicate 32 0 else
    [BitVec.ofNat 8 (1 + (if w.retain then 2 else 0) + (if w.relaxed then 4 else 0)),
      BitVec.ofNat 8 ((if w.rightR then 1 else 0) + (if w.rightW then 2 else 0) + (if w.rightP then 4 else 0)),
      w.firstUnit, w.lastUnit, BitVec.ofNat 8 w.slot.val, w.stride, w.depth, 0,
      BitVec.ofNat 8 (w.base.toNat / 2 ^ 32), BitVec.ofNat 8 (w.base.toNat / 2 ^ 24), BitVec.ofNat 8 (w.base.toNat / 2 ^ 16),
      BitVec.ofNat 8 (w.base.toNat / 2 ^ 8), BitVec.ofNat 8 w.base.toNat,
      BitVec.ofNat 8 (w.span.toNat / 2 ^ 24), BitVec.ofNat 8 (w.span.toNat / 2 ^ 16), BitVec.ofNat 8 (w.span.toNat / 2 ^ 8),
      BitVec.ofNat 8 w.span.toNat]
    ++ List.replicate 15 0 := by
  unfold Window.image
  rw [w.rights_eq, beBytes_five, beBytes_four, bitAt_eq, bitAt_eq, bitAt_eq, ← BitVec.ofNat_add, ← BitVec.ofNat_add]
  cases w.valid <;> rfl

theorem Window.image_length (w : Window) : w.image.length = 32 := by
  rw [Window.image_eq]
  split <;> rfl

theorem Node.image_eq (n : Node) (inUse : Bool) (busy : Nat) : n.image inUse busy = if n.state = .unused then List.replicate 16 0 else
    [if n.state = .quiet then 2 else 1, if inUse then 1 else 0,
      BitVec.ofNat 8 (n.nodeId.toNat / 2 ^ 8), BitVec.ofNat 8 n.nodeId.toNat,
      BitVec.ofNat 8 (n.pieceSize.toNat / 2 ^ 8), BitVec.ofNat 8 n.pieceSize.toNat,
      n.limit, n.timeout, n.threshold, BitVec.ofNat 8 n.count, BitVec.ofNat 8 busy, 0, 0, 0, 0, 0] := by
  unfold Node.image
  rw [beBytes_two_pow, beBytes_two_pow]
  cases n.state <;> cases inUse <;> rfl

theorem Node.image_length (n : Node) (inUse : Bool) (busy : Nat) : (n.image inUse busy).length = 16 := by
  rw [Node.image_eq]
  split <;> rfl

theorem Exchange.view_length (e : Exchange) : e.view.length = 16 := by
  unfold Exchange.view
  split <;> simp

theorem Tag.view_length (t : Tag) : t.view.length = 8 := by
  unfold Tag.view
  split <;> simp

section
variable {α : Type} {n : Nat}

/-- A read of one part of a table laid out in parts of `k` bytes. -/
theorem slice_table (f : α → List Byte) (k : Nat) (v : Vector α n) (h : ∀ a, (f a).length = k) (i : Fin n) :
    slice (v.toList.flatMap f) (k * i.val) k = f (look v i) := by
  rw [slice_flatMap f k v.toList (fun a _ => h a) i.val (by simp)]
  simp [look_eq]

end

/-- One part of a region that may be read. -/
theorem State.readSpace_region (s : State) (r : Region) {offset base k length : Nat} (hr : r.readable = true) (hbase : r.base = base)
    (ho : offset = base + k) (hfit : k + length ≤ r.size) (h0 : 0 < length) :
    s.readSpace offset length = .ok (slice (s.regionBytes r) k length) := by
  subst ho hbase
  rw [State.readSpace_eq s r hr (by omega) (by omega) h0, Nat.add_sub_cancel_left]

theorem State.readSpace_slot (s : State) (r : Region) {α : Type} {n : Nat} (v : Vector α n) (f : α → List Byte) {base k : Nat} (i : Fin n)
    (hr : r.readable = true) (hbase : r.base = base) (hbytes : s.regionBytes r = v.toList.flatMap f) (hsize : r.size = k * n) (h0 : 0 < k)
    (h : ∀ a, (f a).length = k) : s.readSpace (base + k * i.val) k = .ok (f (look v i)) := by
  have fit : k * i.val + k ≤ r.size := by
    rw [hsize, ← Nat.mul_succ]
    exact Nat.mul_le_mul_left k i.isLt
  rw [s.readSpace_region r hr hbase rfl fit h0, hbytes, slice_table f k v h i]

theorem State.readSpace_counter (s : State) (c : Counter) :
    s.readSpace (0x000300 + 2 * c.ix.val) 2 = .ok (beBytes 2 (look s.mu.counters c.ix).toNat) :=
  s.readSpace_slot .counters s.mu.counters (fun c => beBytes 2 c.toNat) c.ix rfl rfl rfl rfl (by decide) fun _ => rfl

theorem State.readSpace_window (s : State) (i : WinIx) : s.readSpace (0x001000 + 32 * i.val) 32 = .ok (look s.tu.windows i).image :=
  s.readSpace_slot .windows s.tu.windows Window.image i rfl rfl rfl rfl (by decide) Window.image_length

theorem State.readSpace_node (s : State) (i : SlotIx) : s.readSpace (0x002000 + 16 * i.val) 16 = .ok (s.nodeImage i) := by
  have images : s.regionBytes .nodes = (Vector.ofFn fun j : SlotIx => j).toList.flatMap s.nodeImage := by
    rw [Vector.toList_ofFn]
    exact congrArg (List.flatMap s.nodeImage) (List.ofFn_id 32).symm
  have self : look (Vector.ofFn fun j : SlotIx => j) i = i := by simp [look_eq]
  have read := s.readSpace_slot .nodes (Vector.ofFn fun j : SlotIx => j) s.nodeImage (k := 16) i rfl rfl images rfl (by decide)
    fun j => Node.image_length _ _ _
  rwa [self] at read

theorem State.readSpace_exchange (s : State) (i : RecIx) : s.readSpace (0x003000 + 16 * i.val) 16 = .ok (s.record i).view :=
  s.readSpace_slot .exchanges s.xu.records Exchange.view i rfl rfl rfl rfl (by decide) Exchange.view_length

theorem State.readSpace_tag (s : State) (i : TagIx) : s.readSpace (0x004000 + 8 * i.val) 8 = .ok (s.tag i).view :=
  s.readSpace_slot .tags s.cu.tags Tag.view i rfl rfl rfl rfl (by decide) Tag.view_length

theorem State.statusBytes_length (s : State) : s.statusBytes.length = 19 := by simp [State.statusBytes]

theorem slice_all {bytes : List Byte} {n : Nat} (h : bytes.length = n) : slice bytes 0 n = bytes := by
  rw [slice, List.drop_zero, List.take_of_length_le h.le]

theorem State.readSpace_whole (s : State) (r : Region) (hr : r.readable = true) (h0 : 0 < r.size) (h : (s.regionBytes r).length = r.size) :
    s.readSpace r.base r.size = .ok (s.regionBytes r) := by
  rw [s.readSpace_region r (k := 0) hr rfl (Nat.add_zero _).symm (by omega) h0, slice_all h]

theorem Exchange.viewFlags_eq (e : Exchange) : BitVec.ofNat 8 e.window.val + bitAt e.relaxed 4 + bitAt e.retain.isSome 5
    + bitAt (e.retain == some true) 6 + bitAt e.abandoned 7 = BitVec.ofNat 8 (e.window.val + (if e.relaxed then 16 else 0)
      + (if e.retain = none then 0 else 32) + (if e.retain = some true then 64 else 0) + (if e.abandoned then 128 else 0)) := by
  have held : (if e.retain.isSome then 2 ^ 5 else 0) = if e.retain = none then 0 else 32 := by cases e.retain <;> rfl
  have wanted : (if (e.retain == some true) = true then 2 ^ 6 else 0) = if e.retain = some true then 64 else 0 := by
    simp only [beq_iff_eq, Nat.reducePow]
  rw [bitAt_eq, bitAt_eq, bitAt_eq, bitAt_eq, held, wanted, ← BitVec.ofNat_add, ← BitVec.ofNat_add, ← BitVec.ofNat_add,
    ← BitVec.ofNat_add]
  rfl

/-- Bytes that no region holds are RANGE, and the command region is ACCESS (R166). -/
theorem State.readSpace_unmapped (s : State) {offset length k : Nat} (hk : k < length)
    (h : ∀ r : Region, offset + k < r.base ∨ r.base + r.size ≤ offset + k) : s.readSpace offset length = .error (.range, 0) := by
  simp only [State.readSpace, readRegion, regionOf_none hk h]

theorem State.readSpace_command (s : State) {offset length : Nat} (h0 : 1 ≤ length) (h : 0x000400 ≤ offset)
    (h' : offset + length ≤ 0x000402) : s.readSpace offset length = .error (.access, 0x0004) := by
  simp only [State.readSpace, readRegion, regionOf_eq .command h h' h0]
  rfl

/-- A read returns nothing of the Line Port but its rate. -/
theorem State.readSpace_line (s : State) {l : LinePort} (h : l.lrate = s.lp.lrate) (offset length : Nat) :
    (s.onLp fun _ => l).readSpace offset length = s.readSpace offset length := by
  have bytes (r : Region) : (s.onLp fun _ => l).regionBytes r = s.regionBytes r := by
    cases r with
    | status =>
      show (s.onLp fun _ => l).statusBytes = s.statusBytes
      simp only [State.statusBytes, State.onLp_lp, h]
      rfl
    | _ => rfl
  simp only [State.readSpace, bytes]

theorem exec_unitZeroRead {s : State} {l : LinePort} {r : LineRequest} (h : s.TakesNew r l) (hk : r.kind = .read) (hu : r.unit = 0) :
    exec r.command s = .next ((s.onLp fun _ => l).managementRead r) := by
  rw [exec_command_new h]
  simp only [State.route, hk, if_pos hu]

/-- Settles O19. -/
theorem unitZeroRead : Obligations.UnitZeroRead := by
  unfold Obligations.UnitZeroRead
  refine ⟨fun s l r h hk hu => ?_, fun s offset length h0 => ⟨?_, s.readSpace_command h0⟩, fun s offset length bytes h =>
    ⟨fun k n hn hk => State.readSpace_part h hn hk, fun more rest hlen hmore h' => State.readSpace_join h h' hlen hmore⟩,
    fun s => ⟨?_, ?_, ?_, s.readSpace_counter, ?_, ?_, ?_, ?_⟩⟩
  · have space := s.readSpace_line (LinePort.take_pins h.1.2).1
    rw [exec_unitZeroRead h hk hu]
    refine ⟨fun bytes hread => ?_, fun code detail hread => ?_⟩ <;> simp only [State.managementRead, space, hread] <;> rfl
  · rintro ⟨k, hk, houtside⟩
    refine s.readSpace_unmapped hk fun region => ?_
    cases region <;> exact houtside (_, _) (by simp)
  · exact s.readSpace_whole .identity rfl (by decide) rfl
  · exact s.readSpace_whole .settings rfl (by decide) rfl
  · refine (s.readSpace_whole .status rfl (by decide) s.statusBytes_length).trans ?_
    cases hover : s.nu.overrun <;> simp [State.regionBytes, State.statusBytes, hover, creditAvailable, State.exchangeCount, bitAt]
  · rintro i w rfl
    rw [s.readSpace_window, Window.image_eq]
  · rintro i n rfl
    rw [s.readSpace_node, State.nodeImage, Node.image_eq]
    rfl
  · rintro i e rfl
    rw [s.readSpace_exchange]
    generalize s.record i = e
    unfold Exchange.view
    rw [e.viewFlags_eq, beBytes_five]
    cases e.state <;> cases e.kind <;> cases e.result <;> rfl
  · rintro i t rfl
    rw [s.readSpace_tag]
    generalize s.tag i = t
    unfold Tag.view
    cases t.state <;> cases t.kind <;> cases t.owner <;> rfl

end Sys2Proof.Machine
end


section
/-! The timers and the pins of the link: what each expiry does (O30, O32), and how REFOK starts and ends a negotiation (O31). -/

namespace Sys2Proof.Machine

/-- A command with RESETN high is its meaning on the state. -/
theorem exec_running {c : Instr} {f : State → State} {s t : State} (hr : s.resetn = true) (hc : exec c s = .next (s.whenRunning f))
    (h : f s = t) : exec c s = .next t := by
  rw [hc, State.whenRunning_true s f hr, h]

/-! ### Exchanges, tags and buffers (R30, R108, R110, R125) -/

theorem State.dropResult_eq (i : RecIx) (s : State) : s.dropResult i = { s with
    xu := ⟨put s.xu.records i Exchange.free, s.xu.answerOrder.filter (· != i)⟩
    mu := s.mu.counts .resultsDropped 1
    reports := Reports.offering s .resultDropped ((s.record i).xno.toNat * 256 + (s.record i).kind.code) s.reports } := by
  rw [State.dropResult, State.offer_eq]
  rfl

theorem State.holdExpires_of_ready {i : RecIx} {s : State} (hstate : (s.record i).state = .ready)
    (htimer : (s.record i).holdTimer ≠ none) : s.holdExpires i = s.dropResult i := by
  simp [State.holdExpires, hstate, htimer]

theorem State.pieceTimesOut_eq (t : TagIx) (s : State) : s.pieceTimesOut t = { s with
    cu := ⟨put s.cu.tags t { s.tag t with state := .cooling, timer := .coolDown (Config.ms (s.tag t).timeout) }⟩
    mu := s.mu.counts .completionTimeouts 1
    reports := { s.reports with
      pieceResults := s.reports.pieceResults
        ++ ((s.tag t).owner.map fun i => (i, PieceResult.failure .timeout (BitVec.ofNat 16 (s.tag t).start))).toList
      nodeReports := s.reports.nodeReports ++ [((s.tag t).slot, .timeout)] } } := by
  rw [State.pieceTimesOut, State.reportPiece_eq, detailOf_zero]
  rfl

theorem RetentionUnit.expire_eq {i : BufIx} {u : RetentionUnit} (hv : (look u.buffers i).valid = true) (ht : (look u.buffers i).timer ≠ none) :
    u.expire i = ⟨put u.buffers i Buffer.invalid, u.useOrder.filter (· != i)⟩ := if_pos ⟨hv, ht⟩

/-- Settles O30. -/
theorem readyTagAndBufferTimersExpire : Obligations.ReadyTagAndBufferTimersExpire := by
  unfold Obligations.ReadyTagAndBufferTimersExpire
  refine ⟨fun s i hr hs ht hrank => ?ready, fun s hr => ⟨fun t n hs ht => ?busy, fun t n hs ht => ?cooling, fun i hv ht => ?buffer⟩⟩
  case ready =>
    refine exec_running hr rfl ?_
    have unranked : s.xu.answerOrder.filter (· != i) = s.xu.answerOrder :=
      List.filter_eq_self.2 fun j hj => by simpa using fun he : j = i => hrank (he ▸ hj)
    rw [State.holdExpires_of_ready hs ht, State.dropResult_eq, unranked]
  case busy =>
    refine exec_running hr rfl ?_
    simp only [State.completionExpires, hs, ht, State.pieceTimesOut_eq]
  case cooling =>
    refine exec_running hr rfl ?_
    simp only [State.coolDownExpires, hs, ht, State.setTag_eq]
  case buffer =>
    exact exec_running hr rfl (congrArg (fun u => { s with ru := u }) (RetentionUnit.expire_eq hv ht))

/-! ### The way into and out of NEGOTIATE (R149 to R154) -/

section
variable {s : State} (reason : DownReason)

theorem State.leaveLink_up (h : s.tp.link = .up) : s.leaveLink reason = s.leaveUp reason := by simp [State.leaveLink, h]

theorem State.leaveLink_settle (h : s.tp.link = .settle) : s.leaveLink reason = s.leaveSettle := by simp [State.leaveLink, h]

theorem State.leaveLink_negotiate (h : s.tp.link = .negotiate) : s.leaveLink reason = s.leaveNegotiate := by simp [State.leaveLink, h]

end

theorem State.startAttempt_eq (n : Nat) (s : State) : s.startAttempt n = { s with
    tp := { s.tp with
      attempt := n, farCap := none, acknowledged := false, farCapack := false
      attemptTimer := some 1000, capInterval := some 100 }
    ia := { s.ia with
      capackClaim := false, capClaim := true, transmitter := s.ia.transmitter.mapEffect PacketEffect.stale } } := rfl

/-- What is offered does not look at the other reports. -/
theorem State.enterFailed_eq (s : State) : s.enterFailed = { s with
    tp := { s.tp with link := .failed, attemptTimer := none, capInterval := none }
    ia := { s.ia with capClaim := false, capackClaim := false }
    reports := Reports.offering s .linkFailed 0 { s.reports with
      failedAtXu := s.reports.failedAtXu + 1, failedAtPq := s.reports.failedAtPq + 1 } } := by
  rw [State.enterFailed, State.offer_eq, State.leaveNegotiate_eq]
  cases h : maskAllows s.mu.settings.mask .linkFailed <;> simp [Reports.offering, State.onTp, State.onReports, h]

theorem exec_refokRise {s : State} (hr : s.resetn = true) (href : s.refok = false) :
    exec .refokRise s = .next (State.refokRises { s with refok := true }) := by
  show (if s.refok then Host.Outcome.next s else .next (State.whenRunning { s with refok := true } State.refokRises)) = _
  rw [if_neg (by simp [href]), State.whenRunning_true { s with refok := true } _ hr]

theorem exec_refokFall {s : State} (hr : s.resetn = true) (href : s.refok = true) :
    exec .refokFall s = .next (State.refokFalls { s with refok := false }) := by
  show (if s.refok then Host.Outcome.next (State.whenRunning { s with refok := false } State.refokFalls) else .next s) = _
  rw [if_pos href, State.whenRunning_true { s with refok := false } _ hr]

/-- Settles O31. -/
theorem refokStartsAndEndsNegotiation : Obligations.RefokStartsAndEndsNegotiation := by
  unfold Obligations.RefokStartsAndEndsNegotiation
  refine ⟨fun s hr => ⟨fun href hl ht => ?holdLow, fun href hl ht => ?holdHigh, fun href hl => ?rise, fun href hl => ?riseElsewhere⟩,
    fun s hr href => ⟨fun hl => ?fallNegotiate, fun hl => ?fallSettle, fun hl => ?fallUp, fun hl => ?fallElsewhere⟩⟩
  case holdLow =>
    refine exec_running hr rfl ?_
    rw [State.segmentHoldExpires, if_pos ⟨hl, ht⟩, State.enterAwaitRef_low href]
    exact State.arbitrate_quiet (by simp) (by simp)
  case holdHigh =>
    refine exec_running hr rfl ?_
    rw [State.segmentHoldExpires, if_pos ⟨hl, ht⟩, State.enterAwaitRef_high href]
    rfl
  case rise =>
    rw [exec_refokRise hr href, State.refokRises, if_pos hl]
    rfl
  case riseElsewhere => rw [exec_refokRise hr href, State.refokRises, if_neg hl]
  case fallNegotiate =>
    rw [exec_refokFall hr href]
    simp only [State.refokFalls, hl]
    rw [State.leaveLink_negotiate (s := { s with refok := false }) _ hl, State.enterAwaitRef_low rfl, State.leaveNegotiate_eq]
  case fallSettle =>
    rw [exec_refokFall hr href]
    simp only [State.refokFalls, hl]
    rw [State.leaveLink_settle (s := { s with refok := false }) _ hl, State.enterAwaitRef_low rfl, State.leaveSettle_eq]
  case fallUp =>
    rw [exec_refokFall hr href]
    simp only [State.refokFalls, hl]
    rw [State.leaveLink_up (s := { s with refok := false }) _ hl, State.leaveUp_eq, State.enterAwaitRef_low rfl]
    rfl
  case fallElsewhere =>
    rw [exec_refokFall hr href]
    rcases hl with hl | hl | hl <;> simp only [State.refokFalls, hl]

/-! ### The link's timers (O32) -/

theorem State.endAttempt_next {s : State} (h : s.tp.attempt < 8) : s.endAttempt = s.startAttempt (s.tp.attempt + 1) := if_pos h

theorem State.endAttempt_last {s : State} (h : 8 ≤ s.tp.attempt) : s.endAttempt = s.enterFailed := if_neg (Nat.not_lt.2 h)

/-- In FAILED, IA sends nothing. -/
theorem State.enterFailed_arbitrate (s : State) : s.enterFailed.arbitrate = s.enterFailed := by
  rw [State.enterFailed_eq]
  exact State.arbitrate_quiet (by simp) (by simp)

/-- With no claim of a higher class, the stopping of the idle timer leaves IA nothing to send. -/
theorem State.idleStopped_arbitrate {s : State} (hl : s.tp.link = .settle ∨ s.tp.link = .up)
    (hup : s.tp.link = .up → s.ia.creditClaim = false ∧ s.ia.cplClaims = [] ∧ s.pick = none) :
    State.arbitrate { s with ia := { s.ia with idleTimer := none } } = { s with ia := { s.ia with idleTimer := none } } := by
  refine State.arbitrate_idle (fun h => ?_) fun h => ?_
  · obtain ⟨hcredit, hcpl, hpick⟩ := hup h
    exact ⟨hcredit, hcpl, State.pick_none_mono (s := s) rfl (fun _ hv => hv) hpick⟩
  · have h : s.tp.link = .negotiate := h
    rcases hl with hl | hl <;> simp [hl] at h

/-- Settles O32. -/
theorem linkTimersExpire : Obligations.LinkTimersExpire := by
  unfold Obligations.LinkTimersExpire
  refine ⟨fun s hr hl => ⟨fun ht hlt => ?next, fun ht hle => ?last, fun ht => ?interval⟩,
    fun s hr => ⟨fun hl ht => ?settled, fun hl ht => ?lossSettle, fun hl ht => ?lossUp⟩, fun s hr hl ht hfree hup => ?idle⟩
  case next =>
    refine exec_running hr rfl ?_
    rw [State.attemptExpires, if_pos ⟨hl, ht⟩, State.endAttempt_next hlt, State.startAttempt_eq]
  case last =>
    refine exec_running hr rfl ?_
    rw [State.attemptExpires, if_pos ⟨hl, ht⟩, State.endAttempt_last hle, State.enterFailed_arbitrate, State.enterFailed_eq]
  case interval =>
    refine exec_running hr rfl ?_
    rw [State.capIntervalExpires, if_pos ⟨hl, ht⟩]
    rfl
  case settled =>
    refine exec_running hr rfl ?_
    rw [State.settleExpires, if_pos ⟨hl, ht⟩, State.offer_eq]
    rfl
  case lossSettle =>
    refine exec_running hr rfl ?_
    rw [State.lossExpires, if_pos ⟨.inl hl, ht⟩, State.leaveLink_settle _ hl, State.leaveSettle_eq]
  case lossUp =>
    refine exec_running hr rfl ?_
    rw [State.lossExpires, if_pos ⟨.inr hl, ht⟩, State.leaveLink_up _ hl, State.leaveUp_eq]
    rfl
  case idle =>
    refine exec_running hr rfl ?_
    rw [State.idleExpires, if_neg ht]
    simp only [State.onIa, State.idleStopped_arbitrate hl hup]
    rw [if_pos ⟨hfree, hl⟩, ← State.rateInForce_linked hl]
    rfl

end Sys2Proof.Machine
end


section
/-! Trunk packets: the end of one that goes out (O33), the filters that an incoming one passes (O34), and the packets of a negotiation
(O35). -/

namespace Sys2Proof.Machine

/-! ### The end of a packet (R89, R93, R152, R164, R177) -/

theorem State.transmitterFree_startIdle (s : State) :
    State.startIdle (s.onIa fun a => { a with transmitter := .free }) = { s with ia := { s.ia with
      transmitter := .free
      idleTimer := if s.tp.link = .settle ∨ s.tp.link = .up then some 250 else s.ia.idleTimer } } := by
  by_cases h : s.tp.link = .settle ∨ s.tp.link = .up
  · rw [if_pos h]
    exact if_pos h
  · rw [if_neg h]
    exact if_neg h

theorem State.testComplete_open {s : State} (h : s.tp.acknowledged = false ∨ s.tp.farCapack = false ∨ s.tp.farCap = none) :
    s.testComplete = s := by
  unfold State.testComplete
  split
  · next f hf => rw [if_neg (by rcases h with h | h | h <;> simp_all)]
  · rfl

theorem State.testComplete_done {s : State} {f : CapFields} (hf : s.tp.farCap = some f) (ha : s.tp.acknowledged = true)
    (hc : s.tp.farCapack = true) : s.testComplete = s.enterSettle f := by
  simp [State.testComplete, hf, ha, hc]

/-- The CAPACK of the CAP accepted as it stands sets the acknowledged flag (R152). -/
theorem State.capackGone_current {s : State} {f : CapFields} (hl : s.tp.link = .negotiate) (hf : s.tp.farCap = some f) :
    s.capackGone (.capack f) = State.testComplete { s with tp := { s.tp with acknowledged := true } } := by
  simp [State.capackGone, hl, hf, State.onTp]

theorem State.capackGone_stale {s : State} {f : CapFields} (h : s.tp.link ≠ .negotiate ∨ s.tp.farCap ≠ some f) :
    s.capackGone (.capack f) = s := by
  unfold State.capackGone
  cases hf : s.tp.farCap with
  | none => rfl
  | some g => exact if_neg fun ⟨hl, he⟩ => h.elim (· hl) fun hne => hne (by rw [hf, he])

/-- Settles O33. -/
theorem packetEnds : Obligations.PacketEnds := by
  unfold Obligations.PacketEnds
  intro s u p rate effect hr ht hu
  have ends : s.packetEnds = (u.packetGone p effect).arbitrate := by
    rw [hu]
    simp only [State.packetEnds, ht, State.transmitterFree_startIdle]
  have htp : s.tp = u.tp := by rw [hu]
  rw [htp]
  refine ⟨fun he => ?plain, fun slot held segreset v he hv => ?cpl, fun f he hp => ⟨fun hl hf hc => ?acknowledged, fun hl hf hc => ?complete,
    fun h => ?stale⟩⟩
  case plain =>
    refine exec_running hr rfl (ends.trans ?_)
    rcases he with rfl | rfl <;> rfl
  case cpl =>
    refine exec_running hr rfl (ends.trans ?_)
    subst he hv
    rfl
  case acknowledged =>
    refine exec_running hr rfl (ends.trans (congrArg State.arbitrate ?_))
    subst he hp
    exact (State.capackGone_current hl hf).trans (State.testComplete_open (.inr (.inl hc)))
  case complete =>
    refine exec_running hr rfl (ends.trans (congrArg State.arbitrate ?_))
    subst he hp
    exact (State.capackGone_current hl hf).trans (State.testComplete_done hf rfl hc)
  case stale =>
    refine exec_running hr rfl (ends.trans (congrArg State.arbitrate ?_))
    subst he hp
    exact State.capackGone_stale h

/-! ### The receiver (R146 to R148, R156) -/

theorem LinkState.receives_iff (l : LinkState) : l.receives = true ↔ l = .negotiate ∨ l = .settle ∨ l = .up := by
  cases l <;> simp [LinkState.receives]

section
variable {s : State} {p : Packet} (handle : State → State)

theorem State.receive_lost (h : s.tp.link.receives = false) : s.receive p handle = s := if_pos h

theorem State.receive_bad (h : s.tp.link.receives = true) (hp : p.formOk = false) : s.receive p handle = s.bump .trunkCrc 1 := by
  simp [State.receive, h, hp]

theorem State.receive_misrouted (h : s.tp.link.receives = true) (hp : p.formOk = true) (hm : s.tp.misrouted p = true) :
    s.receive p handle = s.lossRestarts.bump .trunkMisrouted 1 := by
  simp [State.receive, h, hp, hm]

theorem State.lossRestarts_eq (h : s.tp.link.receives = true) : s.lossRestarts = { s with
    tp := if s.tp.link = .negotiate then s.tp else { s.tp with linkLoss := some (Config.ms s.mu.settings.linkLoss) } } := by
  by_cases hl : s.tp.link = .negotiate
  · rw [State.lossRestarts_negotiate hl, if_pos hl]
  · rw [State.lossRestarts_linked (((LinkState.receives_iff _).1 h).resolve_left hl), if_neg hl]

end

theorem State.lossRestarts_link (s : State) : s.lossRestarts.tp.link = s.tp.link := by
  unfold State.lossRestarts
  split <;> rfl

/-- A packet is misrouted when it names another destination, and any is that names one while the node ID is 0 (R147). -/
theorem TrunkPort.misrouted_iff {t : TrunkPort} {p : Packet} {dest : NodeId} (hd : p.destination = some dest) :
    t.misrouted p = true ↔ dest ≠ t.nodeId ∨ t.nodeId = 0 := by
  simp only [TrunkPort.misrouted, hd, Bool.or_eq_true, beq_iff_eq, bne_iff_ne]
  exact or_comm

theorem TrunkPort.misrouted_self {t : TrunkPort} {p : Packet} (hd : p.destination = some t.nodeId) (h : t.nodeId ≠ 0) :
    t.misrouted p = false := by
  rw [← Bool.not_eq_true, TrunkPort.misrouted_iff hd]
  exact fun hm => hm.elim (fun hne => hne rfl) h

theorem managementPacket_formOk (tag : BitVec 5) (dest source : NodeId) (addr : FabricAddr) (body : MgmtBody) :
    (managementPacket tag dest source addr body).formOk = body.ok := by
  cases body <;> rfl

theorem managementPacket_destination (tag : BitVec 5) (dest source : NodeId) (addr : FabricAddr) (body : MgmtBody) :
    (managementPacket tag dest source addr body).destination = some dest := by
  cases body <;> rfl

/-- Settles O34. -/
theorem receiverFilters : Obligations.ReceiverFilters := by
  unfold Obligations.ReceiverFilters
  refine fun s hr => ⟨fun hl c hc => ?lost, fun hl tp htp => ?taken⟩
  case lost =>
    have off : s.tp.link.receives = false := by rcases hl with hl | hl | hl <;> rw [hl] <;> rfl
    have lost (p : Packet) (handle : State → State) : s.receive p handle = s := State.receive_lost handle off
    rcases hc with ⟨f, rfl⟩ | ⟨f, rfl⟩ | ⟨a, b, rfl⟩ | rfl | ⟨b, rfl⟩ | ⟨a, b, d, e, f, rfl⟩ | ⟨a, b, d, e, rfl⟩
      | ⟨a, b, d, e, f, rfl⟩ | ⟨a, b, d, e, rfl⟩
    case inr.inr.inr.inr.inl => exact exec_running hr rfl (if_neg fun h => by simp [off] at h)
    all_goals exact exec_running hr rfl (lost _ _)
  case taken =>
    have on : s.tp.link.receives = true := (LinkState.receives_iff _).2 hl
    have restarts : s.lossRestarts = { s with tp := tp } := by rw [State.lossRestarts_eq on, htp]
    have misrouted {p : Packet} {dest : NodeId} (handle : State → State) (hp : p.formOk = true) (hd : p.destination = some dest)
        (h : dest ≠ s.tp.nodeId ∨ s.tp.nodeId = 0) :
        s.receive p handle = { s with tp := tp, mu := s.mu.counts .trunkMisrouted 1 } := by
      rw [State.receive_misrouted handle on hp ((TrunkPort.misrouted_iff hd).2 h), restarts]
      rfl
    refine ⟨fun bytes hb => ?_, fun c hc => ?_, ?_, fun dest source addr payload h1 h512 => ⟨fun hd h0 => ?_, fun h => ?_⟩,
      fun tag dest status remaining payload h512 h => ?_, fun source dest code arg h => ?_, fun tag dest source addr body hok h => ?_⟩
    · exact exec_running hr rfl (if_pos ⟨on, hb⟩)
    · rcases hc with ⟨f, rfl, h⟩ | ⟨dest, source, addr, payload, rfl, h⟩ | ⟨dest, tag, status, remaining, payload, rfl, h⟩
        | ⟨tag, dest, source, addr, body, rfl, h⟩
      · exact exec_running hr rfl (State.receive_bad _ on (by simpa [Packet.formOk] using h))
      · exact exec_running hr rfl (State.receive_bad _ on (by simp only [Packet.formOk, Bool.and_eq_false_iff, decide_eq_false_iff_not]; omega))
      · exact exec_running hr rfl (State.receive_bad _ on (by simpa [Packet.formOk] using h))
      · exact exec_running hr rfl (State.receive_bad _ on (by rw [managementPacket_formOk, h]))
    · exact exec_running hr rfl ((State.receive_handled id on rfl rfl).trans restarts)
    · refine exec_running hr rfl ((State.receive_handled _ on (by simp [Packet.formOk, h1, h512])
        (TrunkPort.misrouted_self (by rw [← hd]; rfl) (hd ▸ h0))).trans ?_)
      rw [restarts]
      rfl
    · exact exec_running hr rfl (misrouted _ (by simp [Packet.formOk, h1, h512]) rfl h)
    · exact exec_running hr rfl (misrouted _ (by simp [Packet.formOk, h512]) rfl h)
    · exact exec_running hr rfl (misrouted _ rfl rfl h)
    · exact exec_running hr rfl (misrouted _ ((managementPacket_formOk ..).trans hok) (managementPacket_destination ..) h)

/-! ### The packets of a negotiation (R151 to R154) -/

theorem capAcceptable_iff (f : CapFields) : capAcceptable f = true ↔
    1 ≤ f.rateClass.toNat ∧ f.rateClass.toNat ≤ 4
      ∧ (f.pieceMax.toNat = 64 ∨ f.pieceMax.toNat = 128 ∨ f.pieceMax.toNat = 256 ∨ f.pieceMax.toNat = 512)
      ∧ 1 ≤ f.nodeId.toNat ∧ f.nodeId.toNat ≤ 4094 := by
  simp only [capAcceptable, Bool.and_eq_true, Bool.or_eq_true, decide_eq_true_eq, beq_iff_eq, ← BitVec.toNat_inj]
  simp only [and_assoc, or_assoc, BitVec.reduceToNat]

theorem exec_cap {s : State} (f : CapFields) (hr : s.resetn = true) (h : s.tp.link.receives = true) :
    exec (.cap f) s = .next (s.lossRestarts.takeCap f) := exec_running hr rfl (State.receive_handled _ h rfl rfl)

theorem exec_capack {s : State} {f : CapFields} (hr : s.resetn = true) (hf : f.nodeId.toNat < 4096) (h : s.tp.link.receives = true) :
    exec (.capack f) s = .next (s.lossRestarts.takeCapack f) :=
  exec_running hr rfl (State.receive_handled _ h (by simpa [Packet.formOk] using hf) rfl)

theorem State.takeCap_negotiate {s : State} (f : CapFields) (h : s.tp.link = .negotiate) : s.takeCap f = (s.judgeCap f).arbitrate := by
  simp [State.takeCap, h]

theorem State.takeCap_linked {s : State} (f : CapFields) (h : s.tp.link = .settle ∨ s.tp.link = .up) :
    s.takeCap f = (s.leaveLink .farCap).enterAwaitRef.arbitrate := by
  rcases h with h | h <;> simp [State.takeCap, h]

/-- Settles O35. -/
theorem negotiationPacketsAreJudged : Obligations.NegotiationPacketsAreJudged := by
  unfold Obligations.NegotiationPacketsAreJudged
  refine ⟨fun s f hr => ?cap, capAcceptable_iff, fun s f hr hf => ?capack⟩
  case cap =>
    have negotiate (hl : s.tp.link = .negotiate) : exec (.cap f) s = .next (s.judgeCap f).arbitrate := by
      rw [exec_cap f hr (by rw [hl]; rfl), State.lossRestarts_negotiate hl, State.takeCap_negotiate f hl]
    have linked (hl : s.tp.link = .settle ∨ s.tp.link = .up) :
        exec (.cap f) s = .next (s.lossRestarts.leaveLink .farCap).enterAwaitRef.arbitrate := by
      rw [exec_cap f hr (LinkState.receives_of_linked hl), State.takeCap_linked f (by rwa [State.lossRestarts_link])]
    refine ⟨fun hl ha => ?_, fun hl ha hlt => ?_, fun hl ha hle => ?_, fun hl => ?_, fun hl => ?_⟩
    · rw [negotiate hl, State.judgeCap, if_pos ha]
      rfl
    · rw [negotiate hl, State.judgeCap, if_neg (by simp [ha]), State.endAttempt_next hlt, State.startAttempt_eq]
    · rw [negotiate hl, State.judgeCap, if_neg (by simp [ha]), State.endAttempt_last hle, State.enterFailed_arbitrate,
        State.enterFailed_eq]
    · rw [linked (.inl hl), State.leaveLink_settle _ (by rwa [State.lossRestarts_link]), State.leaveSettle_eq,
        State.lossRestarts_linked (.inl hl)]
    · rw [linked (.inr hl), State.leaveLink_up _ (by rwa [State.lossRestarts_link]), State.leaveUp_eq,
        State.lossRestarts_linked (.inr hl)]
      rfl
  case capack =>
    have negotiate (hl : s.tp.link = .negotiate) : exec (.capack f) s = .next (s.judgeCapack f).arbitrate := by
      rw [exec_capack hr hf (by rw [hl]; rfl), State.lossRestarts_negotiate hl, State.takeCapack, if_pos hl]
    have echo (he : f = gatewayCap) : s.judgeCapack f = State.testComplete { s with tp := { s.tp with farCapack := true } } := if_pos he
    refine ⟨fun hl he ho => ?_, fun g hl he ha hg => ?_, fun hl he => ?_, fun hl => ?_⟩
    · have judged := (echo he).trans (State.testComplete_open (ho.imp id .inr))
      rw [negotiate hl, judged]
    · have judged := (echo he).trans (State.testComplete_done hg ha rfl)
      rw [State.enterSettle_eq] at judged
      rw [negotiate hl, judged]
      exact congrArg Host.Outcome.next (State.arbitrate_quiet (by simp) (by simp))
    · have ignored : s.judgeCapack f = s := if_neg he
      rw [negotiate hl, ignored]
    · rw [exec_capack hr hf (LinkState.receives_of_linked hl), State.lossRestarts_linked hl, State.takeCapack]
      exact congrArg Host.Outcome.next (if_neg (by rcases hl with hl | hl <;> simp [hl]))

end Sys2Proof.Machine
end


section
/-! Packets of UP: the incoming management requests (O37) and the completions (O38, O39). -/

namespace Sys2Proof.Machine

/-! ### Incoming management requests (R148, R163) -/

theorem TrunkPort.freeSlot_some {t : TrunkPort} {i : MgmtIx} (h : look t.slots i = none) (hlow : ∀ j, j < i → look t.slots j ≠ none) :
    t.freeSlot = some i :=
  firstIx_some.2 ⟨by simp [h], fun j hj => by simpa [Option.isSome_iff_ne_none] using hlow j hj⟩

theorem TrunkPort.freeSlot_none {t : TrunkPort} (h : ∀ i, look t.slots i ≠ none) : t.freeSlot = none :=
  firstIx_none.2 fun i => by simpa [Option.isSome_iff_ne_none] using h i

theorem State.takeRequest_held {s : State} (r : MgmtRequest) {i : MgmtIx} (hl : s.tp.link = .up) (hi : s.tp.freeSlot = some i) :
    s.takeRequest r = { s with tp := { s.tp with slots := put s.tp.slots i (some r), unserved := s.tp.unserved ++ [i] } } := by
  unfold State.takeRequest
  rw [hl, hi]
  rfl

theorem State.takeRequest_refused {s : State} (r : MgmtRequest) (h : s.tp.link ≠ .up ∨ s.tp.freeSlot = none) :
    s.takeRequest r = s.bump .trunkRefusedExtra 1 := by
  unfold State.takeRequest
  split
  · next i hl hi => rcases h with h | h <;> simp_all
  · rfl

/-- Where packets are taken, a request of good form for the gateway restarts the link loss timer and is TP's to hold. -/
theorem exec_incomingRequest {s : State} {tag : BitVec 5} {source : NodeId} {addr : FabricAddr} {body : MgmtBody} (hr : s.resetn = true)
    (hid : s.tp.nodeId ≠ 0) (hb : body.ok = true) (hl : s.tp.link.receives = true) :
    exec (.incomingManagementRequest tag s.tp.nodeId source addr body) s
      = .next (s.lossRestarts.takeRequest ⟨tag, source, addr, body⟩) :=
  exec_running hr rfl (State.receive_handled _ hl ((managementPacket_formOk ..).trans hb)
    (TrunkPort.misrouted_self (managementPacket_destination ..) hid))

/-- Settles O37. -/
theorem incomingRequestIsHeld : Obligations.IncomingRequestIsHeld := by
  unfold Obligations.IncomingRequestIsHeld
  refine fun s tag source addr body hr hid hb => ⟨fun i hl hi hlow => ?held, fun h => ?refused, fun hl => ?negotiate⟩
  case held =>
    rw [exec_incomingRequest hr hid hb (LinkState.receives_of_linked (.inr hl)), State.lossRestarts_linked (.inr hl)]
    exact congrArg Host.Outcome.next (State.takeRequest_held (s := { s with tp := { s.tp with linkLoss := _ } }) _ hl
      (TrunkPort.freeSlot_some hi hlow))
  case refused =>
    have hl : s.tp.link = .settle ∨ s.tp.link = .up := h.imp id And.left
    rw [exec_incomingRequest hr hid hb (LinkState.receives_of_linked hl), State.lossRestarts_linked hl]
    refine congrArg Host.Outcome.next (State.takeRequest_refused (s := { s with tp := { s.tp with linkLoss := _ } }) _ ?_)
    rcases h with h | ⟨-, h⟩
    · exact .inl (by simp [h])
    · exact .inr (TrunkPort.freeSlot_none h)
  case negotiate =>
    rw [exec_incomingRequest hr hid hb (by rw [hl]; rfl), State.lossRestarts_negotiate hl]
    exact congrArg Host.Outcome.next (State.takeRequest_refused _ (.inl (by simp [hl])))

/-! ### Completions (R100 to R107) -/

/-- Where packets are taken, a CPL of good form for the gateway restarts the link loss timer and is CU's to take. -/
theorem exec_cpl {s : State} {tag : TagIx} {status : Byte} {remaining : BitVec 16} {payload : List Byte} (hr : s.resetn = true)
    (hid : s.tp.nodeId ≠ 0) (hp : payload.length ≤ 512) (hl : s.tp.link.receives = true) :
    exec (.cpl s.tp.nodeId tag status remaining payload) s
      = .next (s.lossRestarts.takeCompletion tag status remaining payload) :=
  exec_running hr rfl (State.receive_handled _ hl (by simpa [Packet.formOk] using hp) (TrunkPort.misrouted_self rfl hid))

section
variable {s : State} {t : TagIx} (status : Byte) (remaining : BitVec 16) (payload : List Byte)

theorem State.takeCompletion_cooling (h : (s.tag t).state = .cooling) :
    s.takeCompletion t status remaining payload = s.bump .lateCpl 1 := by
  simp [State.takeCompletion, h]

theorem State.takeCompletion_free (h : (s.tag t).state = .free) : s.takeCompletion t status remaining payload = { s with
    mu := s.mu.counts .strayCpl 1, reports := Reports.offering s .stray t.val s.reports } := by
  simp only [State.takeCompletion, h, State.offer_eq]
  rfl

theorem State.takeCompletion_busy (h : (s.tag t).state = .busy) :
    s.takeCompletion t status remaining payload = (s.busyCompletion t status remaining payload).arbitrate := by
  simp [State.takeCompletion, h]

end

/-- Settles O38. -/
theorem lateAndStrayAreDropped : Obligations.LateAndStrayAreDropped := by
  unfold Obligations.LateAndStrayAreDropped
  intro s tag status remaining payload tp hr hid hp htp
  have taken : exec (.cpl s.tp.nodeId tag status remaining payload) s
      = .next (State.takeCompletion tag status remaining payload { s with tp := tp }) := by
    obtain ⟨hl, rfl⟩ | ⟨hl, rfl⟩ := htp
    · rw [exec_cpl hr hid hp (by rw [hl]; rfl), State.lossRestarts_negotiate hl]
    · rw [exec_cpl hr hid hp (LinkState.receives_of_linked hl), State.lossRestarts_linked hl]
  have hnode : tp.nodeId = s.tp.nodeId := by obtain ⟨-, rfl⟩ | ⟨-, rfl⟩ := htp <;> rfl
  refine ⟨fun h => ?_, fun h => ?_⟩
  · exact taken.trans (congrArg Host.Outcome.next (State.takeCompletion_cooling (s := { s with tp := tp }) status remaining payload h))
  · rw [taken, State.takeCompletion_free (s := { s with tp := tp }) status remaining payload h]
    simp only [Reports.offering, hnode]

section
variable {s : State} {t : TagIx} {i : RecIx} (payload : List Byte)

theorem Tag.expected_eq (r : Tag) : r.expected = if r.kind = .read then r.length - r.received else 0 := by
  unfold Tag.expected
  cases r.kind <;> rfl

/-- The bytes of a READ piece go to their place in the owner's read buffer; those of a WRITE go nowhere (R102). -/
theorem State.placePayload_eq (ho : (s.tag t).owner = some i) : s.placePayload t payload = if (s.tag t).kind = .read then { s with
    xu := { s.xu with records := put s.xu.records i { s.record i with
      readBuffer := (s.record i).readBuffer.take ((s.tag t).start + (s.tag t).received) ++ payload
        ++ (s.record i).readBuffer.drop ((s.tag t).start + (s.tag t).received + payload.length) } } } else s := by
  unfold State.placePayload
  simp only [ho]
  cases (s.tag t).kind <;> rfl

theorem State.remoteFailure_eq (ho : (s.tag t).owner = some i) (status : Byte) : s.remoteFailure t status = { s with
    cu := ⟨put s.cu.tags t Tag.free⟩
    reports := { s.reports with
      pieceResults := s.reports.pieceResults ++ [(i, .failure .remote (BitVec.ofNat 16 status.toNat))] } } := by
  rw [State.remoteFailure, State.reportPiece_eq, ho, detailOf_zero]
  rfl

theorem State.shapeFailure_eq (ho : (s.tag t).owner = some i) : s.shapeFailure t = { s with
    cu := ⟨put s.cu.tags t { s.tag t with state := .cooling, timer := .coolDown (Config.ms (s.tag t).timeout) }⟩
    reports := { s.reports with
      pieceResults := s.reports.pieceResults ++ [(i, .failure .protocol (BitVec.ofNat 16 (s.tag t).start))] } } := by
  rw [State.shapeFailure, State.reportPiece_eq, ho, detailOf_zero]
  rfl

/-- Placing bytes touches the records alone. -/
theorem State.placePayload_frame : s.placePayload t payload = { s with xu := (s.placePayload t payload).xu } := by
  simp only [State.placePayload]
  split <;> rfl

theorem State.partialCompletion_eq : s.partialCompletion t payload = { s.placePayload t payload with
    cu := ⟨put s.cu.tags t { s.tag t with received := (s.tag t).received + payload.length }⟩ } := by
  rw [State.partialCompletion, State.placePayload_frame]
  rfl

theorem State.finalCompletion_eq (ho : (s.tag t).owner = some i) : s.finalCompletion t payload = { s.placePayload t payload with
    cu := ⟨put s.cu.tags t Tag.free⟩
    reports := { s.reports with
      pieceResults := s.reports.pieceResults ++ [(i, .success)]
      nodeReports := s.reports.nodeReports ++ [((s.tag t).slot, .success)] } } := by
  simp only [State.finalCompletion, State.reportPiece_eq, ho]
  rw [State.placePayload_frame]
  rfl

end

section
variable {s : State} {t : TagIx} {status : Byte} {remaining : BitVec 16} {payload : List Byte}

theorem State.busyCompletion_failed (h : status ≠ 0) : s.busyCompletion t status remaining payload = s.remoteFailure t status := if_pos h

theorem State.busyCompletion_shaped (h : status = 0) (hlen : payload.length ≤ (s.tag t).expected)
    (hrem : remaining.toNat = (s.tag t).expected - payload.length) : s.busyCompletion t status remaining payload
      = if remaining = 0 then s.finalCompletion t payload else s.partialCompletion t payload := by
  unfold State.busyCompletion
  rw [if_neg (by simp [h]), if_pos ⟨hlen, hrem⟩]

theorem State.busyCompletion_misshaped (h : status = 0)
    (hshape : (s.tag t).expected < payload.length ∨ remaining.toNat ≠ (s.tag t).expected - payload.length) :
    s.busyCompletion t status remaining payload = s.shapeFailure t := by
  unfold State.busyCompletion
  rw [if_neg (by simp [h]), if_neg fun ⟨hlen, hrem⟩ => hshape.elim (fun hlt => absurd hlen (Nat.not_le.2 hlt)) fun hne => hne hrem]

end

/-- Settles O39. -/
theorem busyTagCompletes : Obligations.BusyTagCompletes := by
  unfold Obligations.BusyTagCompletes
  intro s u placed tag r i owed status remaining payload hr hl hid hp hr' hbusy ho howed hu hplaced
  have htag : u.tag tag = r := by rw [hu, hr']; rfl
  have on : s.tp.link.receives = true := (LinkState.receives_iff _).2 hl
  have taken : exec (.cpl s.tp.nodeId tag status remaining payload) s
      = .next (u.busyCompletion tag status remaining payload).arbitrate := by
    rw [exec_cpl hr hid hp on, State.lossRestarts_eq on, ← hu, State.takeCompletion_busy _ _ _ (by rw [htag, hbusy])]
  have howner : (u.tag tag).owner = some i := by rw [htag, ho]
  have hexpected : (u.tag tag).expected = owed := by rw [htag, Tag.expected_eq, howed]
  have hplace : u.placePayload tag payload = placed := by
    rw [State.placePayload_eq payload howner, htag, hplaced, hu]
    rfl
  refine ⟨fun hs => ?remote, fun hs hlen hrem h0 => ?partly, fun hs hlen hrem h0 => ?final, fun hs h => ?shape⟩
  case remote =>
    rw [taken, State.busyCompletion_failed hs, State.remoteFailure_eq howner, hu]
  case partly =>
    rw [taken, State.busyCompletion_shaped hs (by rwa [hexpected]) (by rwa [hexpected]), if_neg h0, State.partialCompletion_eq,
      hplace, htag, hu]
  case final =>
    rw [taken, State.busyCompletion_shaped hs (by rwa [hexpected]) (by rwa [hexpected]), if_pos h0,
      State.finalCompletion_eq payload howner, hplace, htag, hu]
  case shape =>
    rw [taken, State.busyCompletion_misshaped hs (by rwa [hexpected]), State.shapeFailure_eq howner, htag, hu]

end Sys2Proof.Machine
end


section
/-! Reports taken: the piece results (O40) and the timeouts of a node slot (O41). -/

namespace Sys2Proof.Machine

/-! ### The examination for READY (R37) -/

theorem State.offerFill_eq (e : Exchange) (s : State) : s.offerFill e = { s with
    ru := if e.kind = .read ∧ e.result = .ok ∧ e.retain = some true ∧ e.leftUp = false ∧ s.tp.link = .up then
        s.ru.fill e.window e.slot e.addr (e.readBuffer.take e.issueLength) (Config.ms s.mu.settings.retention)
      else s.ru } := by
  by_cases h : e.kind = .read ∧ e.result = .ok ∧ e.retain = some true ∧ e.leftUp = false ∧ s.tp.link = .up
  · rw [State.offerFill, if_pos h, if_pos h]
    rfl
  · rw [State.offerFill, if_neg h, if_neg h]

section
variable {s : State} {i : RecIx}

theorem State.examine_waits (h : ¬((s.record i).inWork = true ∧ (s.record i).outstanding = 0 ∧ (s.record i).hasUnissued = false)) :
    s.examine i = s := if_neg h

/-- A READ that becomes READY with OK and its retain flag set fills a buffer, while the link is UP and has not left it (R37, R123). -/
theorem State.examine_ready {e : Exchange} (h : (s.record i).inWork = true ∧ (s.record i).outstanding = 0 ∧ (s.record i).hasUnissued = false)
    (he : e = { s.record i with
      state := .ready, result := if (s.record i).result = .pending then .ok else (s.record i).result, holdTimer := s.holdInterval }) :
    s.examine i = { s with
      xu := { s.xu with records := put s.xu.records i e }
      ru := if e.kind = .read ∧ e.result = .ok ∧ e.retain = some true ∧ e.leftUp = false ∧ s.tp.link = .up then
          s.ru.fill e.window e.slot e.addr (e.readBuffer.take e.issueLength) (Config.ms s.mu.settings.retention)
        else s.ru } := by
  subst he
  exact (if_pos h).trans (State.offerFill_eq ..)

/-- Without the result OK there is no fill. -/
theorem State.examine_unfilled (h : (s.record i).result ≠ .ok) (h' : (s.record i).result ≠ .pending) : s.examine i = { s with
    xu := { s.xu with records := put s.xu.records i ((s.record i).settled s.holdInterval) } } := by
  unfold Exchange.settled
  split
  · next hr =>
    rw [State.examine_ready hr rfl]
    simp only [if_neg h', h, false_and, and_false, if_false]
  · next hr => rw [State.examine_waits hr, State.record, put_look]

end

/-! ### Piece results (R34, R35) -/

section
variable {s : State} {i : RecIx} {before after : List (RecIx × PieceResult)}

/-- The oldest result of a record is the one found, and the rest stays (R111). -/
theorem Reports.oldestResult {r : PieceResult} (hq : s.reports.pieceResults = before ++ (i, r) :: after) (hb : ∀ x ∈ before, x.1 ≠ i) :
    s.reports.nextResult i = some r ∧ s.reports.pieceResults.eraseP (·.1 == i) = before ++ after := by
  have other : ∀ x ∈ before, (x.1 == i) = false := fun x hx => by simpa using hb x hx
  constructor
  · rw [Reports.nextResult, hq, List.find?_append, List.find?_eq_none.2 fun x hx => by simp [other x hx]]
    simp
  · rw [hq, List.eraseP_append_right _ fun x hx => by simp [other x hx]]
    simp

theorem State.pieceSucceeds_eq (hq : s.reports.pieceResults = before ++ (i, .success) :: after) (hb : ∀ x ∈ before, x.1 ≠ i) :
    s.pieceSucceeds i = State.examine i { s with
      xu := { s.xu with records := put s.xu.records i { s.record i with outstanding := (s.record i).outstanding - 1 } }
      reports := { s.reports with pieceResults := before ++ after } } := by
  obtain ⟨hnext, hrest⟩ := Reports.oldestResult hq hb
  simp only [State.pieceSucceeds, hnext, State.takeSuccess_eq, hrest]

theorem State.pieceFails_eq {code : FaultCode} {detail : BitVec 16}
    (hq : s.reports.pieceResults = before ++ (i, .failure code detail) :: after) (hb : ∀ x ∈ before, x.1 ≠ i) :
    s.pieceFails i = State.arbitrate (State.examine i { s with
      xu := { s.xu with records := put s.xu.records i ((s.record i).failed code detail) }
      ia := { s.ia with orderList := Member.dropIf i (s.record i) s.ia.orderList }
      reports := { s.reports with pieceResults := before ++ after } }) := by
  obtain ⟨hnext, hrest⟩ := Reports.oldestResult hq hb
  simp only [State.pieceFails, hnext, State.takeFailure_eq, hrest]

end

theorem RetentionUnit.fill_eq {u : RetentionUnit} {window : WinIx} {addr : FabricAddr} {data : List Byte} {i : BufIx} (slot : SlotIx)
    (interval : Nat) (h : u.fillTarget window addr data.length = some i) : u.fill window slot addr data interval = {
      buffers := put u.buffers i { valid := true, window := window, slot := slot, addr := addr, data := data, timer := some interval }
      useOrder := u.useOrder.filter (· != i) ++ [i] } := by
  rw [RetentionUnit.fill, h]

/-- Settles O40. -/
theorem pieceResultsAreTaken : Obligations.PieceResultsAreTaken := by
  unfold Obligations.PieceResultsAreTaken
  refine ⟨fun s u i e before after hr hq hb he hwork hu => ?success, fun s u i e code detail before after hr hq hb he hwork hu failed hf => ?failure,
    fun u window slot addr data interval same i hsame h => ?fill⟩
  case success =>
    have taken : exec (.pieceSuccess i) s = .next (State.examine i { u with xu := { s.xu with
        records := put s.xu.records i { e with outstanding := e.outstanding - 1 } } }) := by
      rw [hu, he]
      exact exec_running hr rfl (State.pieceSucceeds_eq hq hb)
    refine ⟨fun hmore => taken.trans (congrArg Host.Outcome.next (State.examine_waits ?_)), fun ready h1 hdone hready => ?_⟩
    · simp only [State.record, look_put_same]
      rintro ⟨-, hout, hun⟩
      have hun : e.hasUnissued = false := hun
      have hout : e.outstanding - 1 = 0 := hout
      rcases hmore with hmore | hmore
      · omega
      · simp [hun] at hmore
    · have inWork : e.inWork = true := (e.inWork_iff).2 hwork
      obtain ⟨hwindow, hslot, haddr, hbuffer, hissue⟩ : ready.window = e.window ∧ ready.slot = e.slot ∧ ready.addr = e.addr
          ∧ ready.readBuffer = e.readBuffer ∧ ready.issueLength = e.issueLength := by
        rw [hready]
        exact ⟨rfl, rfl, rfl, rfl, rfl⟩
      rw [taken, State.examine_ready (e := ready)]
      · simp only [put_put, hu, hwindow, hslot, haddr, hbuffer, hissue]
      · simp only [State.record, look_put_same]
        exact ⟨inWork, by simp [h1], hdone⟩
      · simp only [State.record, look_put_same, hready, h1, State.holdInterval, hu]
  case failure =>
    have hfailed : failed = e.failed code detail := by rw [hf, Exchange.failed, Bool.or_comm]
    have taken : exec (.pieceFailure i) s = .next (State.arbitrate (State.examine i { u with xu := { s.xu with
        records := put s.xu.records i failed } })) := by
      rw [hu, hfailed, he]
      exact exec_running hr rfl (State.pieceFails_eq hq hb)
    have hout : failed.outstanding = e.outstanding - 1 := by rw [hf]
    refine ⟨fun hmore => ?_, fun h1 hok => ?_⟩
    · rw [taken, State.examine_waits]
      simp only [State.record, look_put_same]
      rintro ⟨-, hzero, -⟩
      omega
    · have inWork : failed.inWork = true := by rw [hf]; exact (e.inWork_iff).2 hwork
      have hpending : failed.result ≠ .pending := by
        rw [hf]
        show (if e.result = .pending then ExchangeResult.fault code detail else e.result) ≠ .pending
        split
        · simp
        · assumption
      rw [taken, State.examine_unfilled]
      · simp only [State.record, look_put_same, put_put]
        rw [Exchange.settled, if_pos ⟨inWork, by rw [hout, h1], by rw [hfailed, Exchange.failed_hasUnissued]⟩, if_neg hpending]
        simp only [State.holdInterval, hu]
      · simpa only [State.record, look_put_same] using hok
      · simpa only [State.record, look_put_same] using hpending
  case fill =>
    subst hsame
    refine RetentionUnit.fill_eq slot interval (RetentionUnit.fillTarget_some ?_)
    exact h.imp (fun ⟨hi, hother⟩ => ⟨hi, fun j hj => hother j (Fin.ne_of_lt hj)⟩) id

/-! ### Timeouts of a node slot (R61) -/

theorem State.quarantine_eq (i : SlotIx) (s : State) : s.quarantine i = { s with
    tu := { s.tu with nodes := put s.tu.nodes i { look s.tu.nodes i with state := .quiet } }
    reports := Reports.offering s .nodeQuiet (look s.tu.nodes i).nodeId.toNat { s.reports with
      quietAtXu := s.reports.quietAtXu ++ [i], quietAtPq := s.reports.quietAtPq ++ [i]
      quietAtIa := s.reports.quietAtIa ++ [i] } } := by
  rw [State.quarantine, State.offer_eq]
  rfl

theorem Node.overThreshold_iff (n : Node) : n.overThreshold = true ↔ n.state = .live ∧ n.threshold ≠ 0 ∧ n.threshold.toNat ≤ n.count := by
  simp [Node.overThreshold, and_assoc]

section
variable {s : State} {i : SlotIx}

theorem State.nodeTimesOut_unused (h : (look s.tu.nodes i).state = .unused) : s.nodeTimesOut i = s := if_pos h

theorem State.nodeTimesOut_counted (h : (look s.tu.nodes i).state ≠ .unused) (h' : (look s.tu.nodes i).timedOut.overThreshold = false) :
    s.nodeTimesOut i = s.setNode i (look s.tu.nodes i).timedOut := by
  unfold State.nodeTimesOut
  simp only [if_neg h, h', Bool.false_eq_true, if_false]

theorem State.nodeTimesOut_quiet (h : (look s.tu.nodes i).state ≠ .unused) (h' : (look s.tu.nodes i).timedOut.overThreshold = true) :
    s.nodeTimesOut i = { s with
      tu := { s.tu with nodes := put s.tu.nodes i { (look s.tu.nodes i).timedOut with state := .quiet } }
      reports := Reports.offering s .nodeQuiet (look s.tu.nodes i).nodeId.toNat { s.reports with
        quietAtXu := s.reports.quietAtXu ++ [i], quietAtPq := s.reports.quietAtPq ++ [i]
        quietAtIa := s.reports.quietAtIa ++ [i] } } := by
  unfold State.nodeTimesOut
  simp only [if_neg h, h', if_true, State.quarantine_eq, State.setNode_tu, look_put_same, put_put]
  rfl

end

/-- Settles O41. -/
theorem timeoutReportIsCounted : Obligations.TimeoutReportIsCounted := by
  unfold Obligations.TimeoutReportIsCounted
  intro s i n before after reports hr hq hb hn hreports
  have taken : exec (.timeoutReport i) s = .next (State.nodeTimesOut i { s with reports := reports }) := by
    rw [hreports]
    exact exec_running hr rfl (State.takeNodeReport_of_first _ hq hb)
  have exceeds : n.timedOut.overThreshold = true ↔ n.state = .live ∧ n.threshold ≠ 0 ∧ n.threshold.toNat ≤ min 15 (n.count + 1) :=
    Node.overThreshold_iff n.timedOut
  subst hn
  refine ⟨fun hs => ?unused, fun hs => ?counted, fun hs h0 hle => ?quiet⟩
  case unused => exact taken.trans (congrArg Host.Outcome.next (State.nodeTimesOut_unused (s := { s with reports := reports }) hs))
  case counted =>
    refine taken.trans (congrArg Host.Outcome.next (State.nodeTimesOut_counted (s := { s with reports := reports }) ?_ ?_))
    · rcases hs with hs | ⟨hs, -⟩ <;> exact fun h => by simp [h] at hs
    · rw [← Bool.not_eq_true]
      refine fun h => ?_
      obtain ⟨hlive, hne, hle⟩ := exceeds.1 h
      rcases hs with hs | ⟨-, hs | hs⟩
      · simp [hlive] at hs
      · exact hne hs
      · omega
  case quiet =>
    rw [taken]
    refine congrArg Host.Outcome.next ((State.nodeTimesOut_quiet (s := { s with reports := reports }) (by simp [hs]) (exceeds.2 ⟨hs, h0, hle⟩)).trans ?_)
    rw [hreports]
    rfl

end Sys2Proof.Machine
end


section
/-! Reports of which XU and CU pass every record or tag: a quarantine (O43), and the link's leaving UP and its entry to FAILED (O45). -/

namespace Sys2Proof.Machine

/-! ### A step passed over the records -/

/-- The records of a list changed each by itself, and those of a sort gone from the Order List. -/
def State.swept (l : List RecIx) (change : Timer → Exchange → Exchange) (gone : Exchange → Prop) [DecidablePred gone] (s : State) : State := { s with
  xu := { s.xu with records := mapIx (fun i e => if i ∈ l then change s.holdInterval e else e) s.xu.records }
  ia := { s.ia with orderList := s.ia.orderList.filter fun m => ∀ i, m = .exchange i → ¬(i ∈ l ∧ gone (s.record i)) } }

section
variable {change : Timer → Exchange → Exchange} {gone : Exchange → Prop} [DecidablePred gone] {f : RecIx → State → State}

theorem State.swept_nil (s : State) : s.swept [] change gone = s := by
  have records : mapIx (fun i e => if i ∈ ([] : List RecIx) then change s.holdInterval e else e) s.xu.records = s.xu.records :=
    mapIx_id _ _ fun i => by simp
  rw [State.swept, records]
  simp

theorem State.swept_record (l : List RecIx) (i : RecIx) (s : State) :
    (s.swept l change gone).record i = if i ∈ l then change s.holdInterval (s.record i) else s.record i := look_mapIx ..

theorem State.swept_cons {i : RecIx} {l : List RecIx} (hi : i ∉ l) (s : State) :
    State.swept l change gone (s.swept [i] change gone) = s.swept (i :: l) change gone := by
  have records : mapIx (fun j e => if j ∈ l then change (s.swept [i] change gone).holdInterval e else e)
      (s.swept [i] change gone).xu.records = mapIx (fun j e => if j ∈ i :: l then change s.holdInterval e else e) s.xu.records := by
    refine table_ext fun j => ?_
    have hold : (s.swept [i] change gone).holdInterval = s.holdInterval := rfl
    have swept : look (s.swept [i] change gone).xu.records j = _ := State.swept_record [i] j s
    rw [look_mapIx, look_mapIx, hold, swept, State.record]
    by_cases hji : j = i
    · simp [hji, hi]
    · simp [hji]
  have order (m : Member) : (decide (∀ j, m = .exchange j → ¬(j ∈ l ∧ gone ((s.swept [i] change gone).record j)))
      && decide (∀ j, m = .exchange j → ¬(j ∈ [i] ∧ gone (s.record j))))
      = decide (∀ j, m = .exchange j → ¬(j ∈ i :: l ∧ gone (s.record j))) := by
    cases m with
    | push => simp
    | exchange j =>
      rw [← Bool.decide_and]
      refine decide_eq_decide.2 ?_
      simp only [Member.exchange.injEq, forall_eq', State.swept_record, List.mem_cons, List.not_mem_nil, or_false]
      by_cases hji : j = i
      · simp [hji, hi]
      · simp [hji]
  have orders : ((s.swept [i] change gone).ia.orderList.filter
        fun m => ∀ j, m = .exchange j → ¬(j ∈ l ∧ gone ((s.swept [i] change gone).record j)))
      = s.ia.orderList.filter fun m => ∀ j, m = .exchange j → ¬(j ∈ i :: l ∧ gone (s.record j)) := by
    show (s.ia.orderList.filter _).filter _ = _
    rw [List.filter_filter]
    exact List.filter_congr fun m _ => order m
  rw [State.swept, orders, records]
  rfl

/-- A step that changes each record by itself, passed over a list of them. -/
theorem State.foldl_swept {P : Exchange → Prop} (step : ∀ i t, P (t.record i) → f i t = t.swept [i] change gone) {l : List RecIx}
    (hl : l.Nodup) {s : State} (h : ∀ i ∈ l, P (s.record i)) : l.foldl (fun t i => f i t) s = s.swept l change gone := by
  induction l generalizing s with
  | nil => exact (State.swept_nil s).symm
  | cons i l ih =>
    obtain ⟨hi, hl⟩ := List.nodup_cons.1 hl
    rw [List.foldl_cons, step i s (h i (by simp)), ih hl, State.swept_cons hi]
    intro j hj
    have other : j ∉ [i] := fun hji => hi (List.mem_singleton.1 hji ▸ hj)
    rw [State.swept_record, if_neg other]
    exact h j (by simp [hj])

theorem State.forRecords_eq {P : Exchange → Prop} (step : ∀ i t, P (t.record i) → f i t = t.swept [i] change gone) {s : State}
    (h : ∀ i, P (s.record i)) : s.forRecords f = { s with
      xu := { s.xu with records := mapIx (fun _ e => change s.holdInterval e) s.xu.records }
      ia := { s.ia with orderList := s.ia.orderList.filter fun m => ∀ i, m = .exchange i → ¬gone (s.record i) } } := by
  rw [State.forRecords, State.foldl_swept step (List.nodup_finRange 8) fun i _ => h i]
  simp only [State.swept, List.mem_finRange, if_true, true_and]

end

/-! ### The end of an exchange by a report (R38 to R40) -/

/-- A fault recorded unless one stands, the unissued pieces given up, and READY when nothing is outstanding (R36 to R40). -/
def Exchange.ended (code : FaultCode) (detail : BitVec 16) (hold : Timer) (e : Exchange) : Exchange :=
  { e with
    abandoned := true
    result := if e.result = .pending then .fault code detail else e.result
    state := if e.outstanding = 0 then .ready else e.state
    holdTimer := if e.outstanding = 0 then hold else e.holdTimer }

theorem Exchange.ended_eq (code : FaultCode) (detail : BitVec 16) (hold : Timer) (e : Exchange) : e.ended code detail hold =
    if e.outstanding = 0 then { e with
      abandoned := true, state := .ready, holdTimer := hold
      result := if e.result = .pending then .fault code detail else e.result }
    else { e with abandoned := true, result := if e.result = .pending then .fault code detail else e.result } := by
  unfold Exchange.ended
  split <;> rfl

section
variable {s : State} {i : RecIx} (code : FaultCode) (detail : BitVec 16)

/-- A record in work that is changed is put in its place, and its member leaves the Order List. -/
theorem State.swept_one {change : Timer → Exchange → Exchange} {gone : Exchange → Prop} [DecidablePred gone] (h : gone (s.record i)) :
    s.swept [i] change gone = { s with
      xu := { s.xu with records := put s.xu.records i (change s.holdInterval (s.record i)) }
      ia := { s.ia with orderList := s.ia.orderList.filter (· != .exchange i) } } := by
  have records : mapIx (fun j e => if j ∈ [i] then change s.holdInterval e else e) s.xu.records
      = put s.xu.records i (change s.holdInterval (s.record i)) := by
    refine table_ext fun j => ?_
    by_cases hji : j = i
    · simp [hji, State.record]
    · simp [hji, look_put_other _ _ (Ne.symm hji)]
  have order : (s.ia.orderList.filter fun m => ∀ j, m = .exchange j → ¬(j ∈ [i] ∧ gone (s.record j)))
      = s.ia.orderList.filter (· != .exchange i) := by
    refine List.filter_congr fun m _ => ?_
    cases m with
    | push => simp
    | exchange j => by_cases hji : j = i <;> simp [hji, h]
  rw [State.swept, records, order]

/-- A record that is not of the sort is left as it is. -/
theorem State.swept_none {change : Timer → Exchange → Exchange} {gone : Exchange → Prop} [DecidablePred gone]
    (h : ¬gone (s.record i)) (hsame : change s.holdInterval (s.record i) = s.record i) : s.swept [i] change gone = s := by
  have records : mapIx (fun j e => if j ∈ [i] then change s.holdInterval e else e) s.xu.records = s.xu.records := by
    refine mapIx_id _ _ fun j => ?_
    by_cases hji : j = i
    · subst hji
      exact (if_pos (by simp)).trans hsame
    · simp [hji]
  have order : (s.ia.orderList.filter fun m => ∀ j, m = .exchange j → ¬(j ∈ [i] ∧ gone (s.record j))) = s.ia.orderList := by
    refine List.filter_eq_self.2 fun m _ => ?_
    cases m with
    | push => simp
    | exchange j => by_cases hji : j = i <;> simp [hji, h]
  rw [State.swept, records, order]

theorem State.finalise_ended (hw : (s.record i).inWork = true) (hok : (s.record i).result ≠ .ok) :
    s.finalise code detail i = { s with
      xu := { s.xu with records := put s.xu.records i ((s.record i).ended code detail s.holdInterval) }
      ia := { s.ia with orderList := s.ia.orderList.filter (· != .exchange i) } } := by
  have faulted : (if (s.record i).result = .pending then ExchangeResult.fault code detail else (s.record i).result) ≠ .ok
      ∧ (if (s.record i).result = .pending then ExchangeResult.fault code detail else (s.record i).result) ≠ .pending := by
    split <;> simp_all
  obtain ⟨hfault, hdone⟩ := faulted
  have settled : Exchange.settled s.holdInterval { s.record i with
      result := if (s.record i).result = .pending then .fault code detail else (s.record i).result, abandoned := true }
      = (s.record i).ended code detail s.holdInterval := by
    by_cases hout : (s.record i).outstanding = 0
    · rw [Exchange.settled, if_pos ⟨hw, hout, by simp [Exchange.hasUnissued]⟩]
      simp only [Exchange.ended, if_pos hout, if_neg hdone]
    · rw [Exchange.settled, if_neg fun h => hout h.2.1]
      simp only [Exchange.ended, if_neg hout]
  rw [State.finalise_eq, Exchange.withFault_eq, State.examine_unfilled]
  · simp only [State.record, look_put_same, put_put]
    exact congrArg (fun e => { s with
      xu := { s.xu with records := put s.xu.records i e }
      ia := { s.ia with orderList := s.ia.orderList.filter (· != Member.exchange i) } }) settled
  · simpa only [State.record, look_put_same] using hfault
  · simpa only [State.record, look_put_same] using hdone

end

/-- A record in work has no result OK yet (R18). -/
theorem Exchange.ok_inWork {e : Exchange} (h : e.ok) (hw : e.inWork = true) : e.result ≠ .ok := by
  obtain ⟨-, -, -, -, hqueued, -, hactive⟩ := h
  rcases e.inWork_iff.1 hw with hs | hs
  · simp [(hqueued hs).2.2.2.2]
  · exact hactive hs

/-- A report that ends the exchanges of one sort, all in work. -/
theorem State.forRecords_ended {f : RecIx → State → State} {ends : Exchange → Prop} [DecidablePred ends] {code : FaultCode} {detail : BitVec 16} {s : State}
    (hf : ∀ i t, f i t = if ends (t.record i) then t.finalise code detail i else t) (hw : ∀ e, ends e → e.inWork = true)
    (hok : RecordsOk s.xu) : s.forRecords f = { s with
      xu := { s.xu with records := mapIx (fun _ e => if ends e then e.ended code detail s.holdInterval else e) s.xu.records }
      ia := { s.ia with orderList := s.ia.orderList.filter fun m => ∀ i, m = .exchange i → ¬ends (s.record i) } } := by
  refine State.forRecords_eq (P := fun e => ends e → e.result ≠ .ok)
    (change := fun hold e => if ends e then e.ended code detail hold else e) (fun i t hP => ?_)
    fun i he => Exchange.ok_inWork (hok i) (hw _ he)
  rw [hf]
  by_cases he : ends (t.record i)
  · rw [if_pos he, State.finalise_ended code detail (hw _ he) (hP he), State.swept_one he, if_pos he]
  · rw [if_neg he, State.swept_none he (if_neg he)]

/-- Settles O43. -/
theorem quarantineIsTaken : Obligations.QuarantineIsTaken := by
  unfold Obligations.QuarantineIsTaken
  refine fun s slot hr => ⟨fun hmem hok => ?xu, exec_running hr rfl rfl⟩
  case xu =>
    have swept := State.forRecords_ended (f := State.quarantineRecord slot) (code := .nodeQuiet) (detail := detailOf 0 slot.val)
      (ends := fun e => e.inWork = true ∧ e.slot = slot ∧ e.hasUnissued = true)
      (s := { s with reports := { s.reports with quietAtXu := s.reports.quietAtXu.erase slot } })
      (fun _ _ => rfl) (fun e he => he.1) hok
    refine ⟨_, exec_running hr rfl ((if_pos (by simpa using hmem)).trans (congrArg State.arbitrate swept)), rfl, fun i => ?_⟩
    rw [State.record, look_mapIx]
    simp only [Exchange.ended_eq, detailOf_zero]
    rfl

/-! ### The link's leaving UP, and FAILED (R39, R40, R113, R129, R158) -/

section
variable {s : State} {t : TagIx}

theorem State.cutTag_eq (reason : DownReason) (t : TagIx) (s : State) : s.cutTag reason t = { s with
    cu := ⟨put s.cu.tags t (s.tag t).cooled⟩
    reports := { s.reports with pieceResults := s.reports.pieceResults
      ++ ((s.tag t).owner.map fun i => (i, PieceResult.failure .cut (BitVec.ofNat 16 reason.code))).toList } } := by
  rw [State.cutTag, State.reportPiece_eq, detailOf_zero]
  rfl

/-- Distinct tags, one after another: each is COOLING, and its piece fails in the order of the list (R113). -/
theorem State.foldl_cutTag (reason : DownReason) {l : List TagIx} (hl : l.Nodup) (s : State) :
    l.foldl (fun u t => u.cutTag reason t) s = { s with
      cu := ⟨mapIx (fun t r => if t ∈ l then r.cooled else r) s.cu.tags⟩
      reports := { s.reports with
        pieceResults := s.reports.pieceResults ++ l.filterMap (fun t => (s.tag t).owner.map fun i => (i, PieceResult.failure .cut (BitVec.ofNat 16 reason.code))) } } := by
  induction l generalizing s with
  | nil =>
    have same : mapIx (fun t r => if t ∈ ([] : List TagIx) then r.cooled else r) s.cu.tags = s.cu.tags := mapIx_id _ _ fun t => by simp
    simp only [List.foldl_nil, same, List.filterMap_nil, List.append_nil]
  | cons t l ih =>
    obtain ⟨ht, hl⟩ := List.nodup_cons.1 hl
    have tags : mapIx (fun u r => if u ∈ l then r.cooled else r) (put s.cu.tags t (s.tag t).cooled)
        = mapIx (fun u r => if u ∈ t :: l then r.cooled else r) s.cu.tags := by
      refine table_ext fun u => ?_
      by_cases hu : u = t
      · simp [hu, ht, State.tag]
      · simp [hu, look_put_other _ _ (Ne.symm hu)]
    have results : (l.filterMap fun u => ((s.cutTag reason t).tag u).owner.map fun i =>
          (i, PieceResult.failure .cut (BitVec.ofNat 16 reason.code)))
        = l.filterMap fun u => (s.tag u).owner.map fun i => (i, PieceResult.failure .cut (BitVec.ofNat 16 reason.code)) :=
      List.filterMap_congr fun u hu => by
        have other : t ≠ u := fun h => ht (h ▸ hu)
        rw [State.cutTag_tag_other reason s other]
    rw [List.foldl_cons, ih hl, results, State.cutTag_eq]
    simp only [tags, List.append_assoc]
    cases howner : (s.tag t).owner <;> simp [howner]

theorem State.cutTags_eq (reason : DownReason) (s : State) : s.cutTags reason = { s with
    cu := ⟨mapIx (fun _ t => if t.state = .busy then
      { t with state := .cooling, timer := .coolDown (Config.ms t.timeout) } else t) s.cu.tags⟩
    reports := { s.reports with pieceResults := s.reports.pieceResults ++ (List.finRange 32).filterMap (fun t =>
      if (s.tag t).state = .busy then
        (s.tag t).owner.map fun i => (i, PieceResult.failure .cut (BitVec.ofNat 16 reason.code))
      else none) } } := by
  have tags : mapIx (fun t r => if t ∈ s.cu.busyTags then r.cooled else r) s.cu.tags
      = mapIx (fun _ t => if t.state = .busy then { t with state := .cooling, timer := .coolDown (Config.ms t.timeout) } else t) s.cu.tags :=
    table_ext fun t => by simp only [look_mapIx, CompletionUnit.mem_busyTags]; rfl
  have results : (s.cu.busyTags.filterMap fun t => (s.tag t).owner.map fun i => (i, PieceResult.failure .cut (BitVec.ofNat 16 reason.code)))
      = (List.finRange 32).filterMap fun t => if (s.tag t).state = .busy then
          (s.tag t).owner.map (fun i => (i, PieceResult.failure .cut (BitVec.ofNat 16 reason.code))) else none := by
    rw [CompletionUnit.busyTags, List.filterMap_filter]
    simp only [beq_iff_eq]
    rfl
  rw [State.cutTags, State.foldl_cutTag reason s.cu.busyTags_nodup, tags, results]

end

theorem State.leftUpXu_cons {s : State} {reason : DownReason} {left : List DownReason} (h : s.reports.leftAtXu = reason :: left) :
    s.leftUpXu = State.arbitrate (State.forRecords (State.cutRecord reason) { s with reports := { s.reports with leftAtXu := left } }) := by
  simp only [State.leftUpXu, h]
  rfl

theorem State.failedXu_succ {s : State} {n : Nat} (h : s.reports.failedAtXu = n + 1) :
    s.failedXu = State.arbitrate (State.forRecords State.failRecord { s with reports := { s.reports with failedAtXu := n } }) := by
  simp only [State.failedXu, h]
  rfl

/-- Settles O45. -/
theorem linkReportsAreTaken : Obligations.LinkReportsAreTaken := by
  unfold Obligations.LinkReportsAreTaken
  refine ⟨fun s hr hok => ⟨fun reason left hq => ?xuCut, fun n hq => ?xuFailed⟩,
    fun s reason left hr => ⟨fun hq => ?cu, fun hq => ?ru, fun hq => ?ia⟩⟩
  case xuCut =>
    have swept := State.forRecords_ended (f := State.cutRecord reason) (code := .cut) (detail := detailOf 0 reason.code)
      (ends := fun e => e.state = .active) (s := { s with reports := { s.reports with leftAtXu := left } })
      (fun _ _ => rfl) (fun e he => (e.inWork_iff).2 (.inr he)) hok
    refine ⟨_, exec_running hr rfl ((State.leftUpXu_cons hq).trans (congrArg State.arbitrate swept)), rfl, fun i => ?_⟩
    rw [State.record, look_mapIx]
    simp only [detailOf_zero]
    refine ite_congr rfl (fun ha : (s.record i).state = .active => ?_) fun _ => rfl
    rw [← ha]
    rfl
  case xuFailed =>
    have swept := State.forRecords_ended (f := State.failRecord) (code := .link) (detail := linkDetail)
      (ends := fun e => e.state = .queued) (s := { s with reports := { s.reports with failedAtXu := n } })
      (fun _ _ => rfl) (fun e he => (e.inWork_iff).2 (.inl he)) hok
    refine ⟨_, exec_running hr rfl ((State.failedXu_succ hq).trans (congrArg State.arbitrate swept)), rfl, fun i => ?_⟩
    rw [State.record, look_mapIx]
    refine ite_congr rfl (fun hqueued => ?_) fun _ => rfl
    obtain ⟨-, -, -, -, hnew, -⟩ := hok i
    obtain ⟨-, -, hout, -, hpending⟩ := hnew hqueued
    rw [Exchange.ended_eq, if_pos hout, if_pos hpending, linkDetail_eq]
    rfl
  case cu =>
    refine exec_running hr rfl ?_
    simp only [State.leftUpCu, hq]
    exact congrArg State.arbitrate (State.cutTags_eq reason _)
  case ru =>
    refine exec_running hr rfl ?_
    simp only [State.leftUpRu, hq]
    exact congrArg (fun u => { s with ru := u, reports := { s.reports with leftAtRu := left } }) (RetentionUnit.invalidate_all s.ru)
  case ia =>
    refine exec_running hr rfl ?_
    simp only [State.leftUpIa, hq]
    rfl

end Sys2Proof.Machine
end


section
/-! The cuts of the Push Queue by a report (O44). -/

namespace Sys2Proof.Machine

theorem State.cutHeads_pushes (n : Nat) (s : State) : (s.cutHeads n).pq.pushes = s.pq.pushes.drop n := by
  induction n generalizing s with
  | zero => rfl
  | succ n ih => rw [State.cutHeads, ih, State.cutHead_pushes, List.drop_tail]

theorem State.cutHead_eq {s : State} {p : Push} {rest : List Push} (h : s.pq.pushes = p :: rest) : s.cutHead = { s with
    pq := ⟨rest⟩
    ia := { s.ia with orderList := s.ia.orderList.erase .push }
    mu := s.mu.counts .pushBytesCut (p.payload.length - p.issued)
    reports := Reports.offering s .pushCut ((if p.broadcast then 256 else 0) + (p.payload.length - p.issued)) s.reports } := by
  simp only [State.cutHead, h, State.offer_eq, State.headLeaves, State.onPq, State.onIa, State.bump_pq, List.tail_cons]
  rfl

/-- An empty queue has no head to test. -/
theorem State.testHead_nil {s : State} (h : s.pq.pushes = []) : s.testHead = s :=
  State.testHead_eq_self (by simp [State.headQuiet, h])

section
variable {s : State} {slot : SlotIx}

theorem PushQueue.headIs_iff (q : PushQueue) : q.headIs slot = true ↔ ∃ p ∈ q.pushes.head?, p.slot = slot := by
  unfold PushQueue.headIs
  split <;> next h => simp [h]

/-- PQ tests the head where the slot reported is the head's (R75). -/
theorem State.quarantinePq_own (hmem : slot ∈ s.reports.quietAtPq) (h : ∀ p ∈ s.pq.pushes.head?, p.slot = slot) :
    s.quarantinePq slot
      = State.arbitrate (State.testHead { s with reports := { s.reports with quietAtPq := s.reports.quietAtPq.erase slot } }) := by
  refine (if_pos (by simpa using hmem)).trans (congrArg State.arbitrate ?_)
  by_cases hhead : s.pq.headIs slot = true
  · exact if_pos hhead
  · have empty : s.pq.pushes = [] :=
      List.head?_eq_none_iff.1 (Option.eq_none_iff_forall_ne_some.2 fun p hp => hhead ((PushQueue.headIs_iff _).2 ⟨p, hp, h p hp⟩))
    exact (if_neg hhead).trans (State.testHead_nil (s := s.onReports _) empty).symm

theorem State.quarantinePq_other (hmem : slot ∈ s.reports.quietAtPq) (h : ∀ p ∈ s.pq.pushes.head?, p.slot ≠ slot) :
    s.quarantinePq slot = State.arbitrate { s with reports := { s.reports with quietAtPq := s.reports.quietAtPq.erase slot } } := by
  refine (if_pos (by simpa using hmem)).trans (congrArg State.arbitrate (if_neg fun hhead => ?_))
  obtain ⟨p, hp, he⟩ := (PushQueue.headIs_iff _).1 hhead
  exact h p hp he

end

section
variable {s : State} {p : Push} {rest : List Push}

theorem State.cutStartedHead_started (h : s.pq.pushes = p :: rest) (hi : 0 < p.issued) : s.cutStartedHead = s.cutHead.testHead := by
  simp only [State.cutStartedHead, h, if_pos hi]

theorem State.cutStartedHead_fresh (h : s.pq.pushes = p :: rest) (hi : p.issued = 0) : s.cutStartedHead = s := by
  simp [State.cutStartedHead, h, hi]

theorem State.cutStartedHead_nil (h : s.pq.pushes = []) : s.cutStartedHead = s := by simp [State.cutStartedHead, h]

theorem State.leftUpPq_cons {reason : DownReason} {left : List DownReason} (h : s.reports.leftAtPq = reason :: left) :
    s.leftUpPq = State.arbitrate (State.cutStartedHead { s with reports := { s.reports with leftAtPq := left } }) := by
  simp only [State.leftUpPq, h]
  rfl

theorem State.failedPq_succ {n : Nat} (h : s.reports.failedAtPq = n + 1) : s.failedPq
    = State.arbitrate (State.cutHeads s.pq.pushes.length { s with reports := { s.reports with failedAtPq := n } }) := by
  simp only [State.failedPq, h]
  rfl

end

/-- Settles O44. -/
theorem pushesAreCut : Obligations.PushesAreCut := by
  unfold Obligations.PushesAreCut
  refine fun s hr => ⟨fun slot cut kept u hmem hp hhead hcut hkept hu => ?own, fun slot hmem hhead => ?other,
    fun p rest reason left hp hq => ⟨fun cut kept u hi hrest hcut hkept hu => ?started, fun hi => ?fresh⟩,
    fun reason left hp hq => ?empty, fun n u hq hu => ?failed, rfl, fun _ => rfl, fun p rest => State.cutHead_eq⟩
  case own =>
    obtain ⟨htest, hpushes⟩ := State.testHead_run cut kept
      { s with reports := { s.reports with quietAtPq := s.reports.quietAtPq.erase slot } } hp hcut hkept
    rw [← hu] at htest hpushes
    exact ⟨exec_running hr rfl ((State.quarantinePq_own hmem hhead).trans (congrArg State.arbitrate htest)), hpushes⟩
  case other => exact exec_running hr rfl (State.quarantinePq_other hmem hhead)
  case started =>
    have next : (State.cutHead { s with reports := { s.reports with leftAtPq := left } }).pq.pushes = cut ++ kept := by
      rw [State.cutHead_pushes]
      show s.pq.pushes.tail = _
      rw [hp, List.tail_cons, hrest]
    have tables : (State.cutHead { s with reports := { s.reports with leftAtPq := left } }).tu = s.tu := by rw [State.cutHead_frame]
    obtain ⟨htest, hpushes⟩ := State.testHead_run cut kept _ next (by rwa [tables]) (by rwa [tables])
    rw [hu]
    refine ⟨exec_running hr rfl ((State.leftUpPq_cons hq).trans (congrArg State.arbitrate ?_)), hpushes⟩
    exact (State.cutStartedHead_started (s := { s with reports := { s.reports with leftAtPq := left } }) hp hi).trans htest
  case fresh =>
    exact exec_running hr rfl ((State.leftUpPq_cons hq).trans (congrArg State.arbitrate
      (State.cutStartedHead_fresh (s := { s with reports := { s.reports with leftAtPq := left } }) hp hi)))
  case empty =>
    exact exec_running hr rfl ((State.leftUpPq_cons hq).trans (congrArg State.arbitrate
      (State.cutStartedHead_nil (s := { s with reports := { s.reports with leftAtPq := left } }) hp)))
  case failed =>
    rw [hu]
    exact ⟨exec_running hr rfl (State.failedPq_succ hq), by rw [State.cutHeads_pushes]; exact List.drop_length⟩

end Sys2Proof.Machine
end


section
/-! Packets read back from their bytes (O49). -/

namespace Sys2Proof.Machine

/-! ### The fields of a packet (R183) -/

section
variable {b : List Byte} {i : Nat}

theorem nodeIdField_eq {id : NodeId} (h : slice b i 2 = beBytes 2 id.toNat) : nodeIdField b i = some id := by
  have lt : id.toNat < 4096 := id.isLt
  rw [nodeIdField, h, beNat_beBytes 2 _ (by omega)]
  simp [lt]

theorem tagField_eq {tag : BitVec 5} (h : byteAt b i = tag.setWidth 8) : tagField b i = some tag := by
  have lt : tag.toNat < 32 := tag.isLt
  have value : (byteAt b i).toNat = tag.toNat := by rw [h, BitVec.toNat_setWidth_of_le (by omega)]
  rw [tagField, value]
  simp [lt]

theorem word16_eq {v : BitVec 16} (h : slice b i 2 = beBytes 2 v.toNat) : word16 b i = v := by
  rw [word16, h, beNat_beBytes 2 _ (by simpa using v.isLt), BitVec.ofNat_toNat, BitVec.setWidth_eq]

theorem word16_length {n : Nat} (hn : n ≤ 512) (h : slice b i 2 = beBytes 2 n) : (word16 b i).toNat = n := by
  rw [word16, h, beNat_beBytes 2 _ (by omega), BitVec.toNat_ofNat]
  omega

theorem addrField_eq {a : FabricAddr} (h : slice b i 5 = beBytes 5 a.toNat) : addrField b i = a := by
  rw [addrField, h, beNat_beBytes 5 _ (by simpa using a.isLt), BitVec.ofNat_toNat, BitVec.setWidth_eq]

end

theorem capField_eq {b : List Byte} {f : CapFields} (hrate : byteAt b 1 = f.rateClass) (hpiece : slice b 2 2 = beBytes 2 f.pieceMax.toNat)
    (hrequest : byteAt b 4 = f.requestLimit) (hpush : byteAt b 5 = f.pushLimit) (hid : slice b 6 2 = beBytes 2 f.nodeId.toNat) :
    capField b = f := by
  have piece : BitVec.ofNat 16 (beNat (slice b 2 2)) = f.pieceMax := word16_eq hpiece
  have id : BitVec.ofNat 16 (beNat (slice b 6 2)) = f.nodeId := word16_eq hid
  rw [capField, hrate, piece, hrequest, hpush, id]

/-- The typed fields of each body are read back (Table 11-4). -/
theorem bodyFields_body {p : Packet} (h : p.formOk = true) : bodyFields p.body = some p := by
  cases p with
  | cap f => exact congrArg (fun g => some (Packet.cap g)) (capField_eq (b := (Packet.cap f).body) rfl rfl rfl rfl rfl)
  | capack f => exact congrArg (fun g => some (Packet.capack g)) (capField_eq (b := (Packet.capack f).body) rfl rfl rfl rfl rfl)
  | credit request push => rfl
  | keep => rfl
  | rqr tag dest source addr count =>
    show rqrFields _ = _
    rw [rqrFields, tagField_eq (tag := tag) rfl, nodeIdField_eq (id := dest) rfl, nodeIdField_eq (id := source) rfl,
      addrField_eq (a := addr) rfl, word16_eq (v := count) rfl]
    rfl
  | rqw tag dest source addr payload =>
    obtain ⟨-, h512⟩ : 1 ≤ payload.length ∧ payload.length ≤ 512 := by simpa [Packet.formOk] using h
    show rqwFields _ = _
    rw [rqwFields, tagField_eq (tag := tag) rfl, nodeIdField_eq (id := dest) rfl, nodeIdField_eq (id := source) rfl,
      addrField_eq (a := addr) rfl, word16_length h512 rfl]
    exact if_pos (by simp [Packet.body]; omega)
  | psh dest source addr payload =>
    obtain ⟨-, h512⟩ : 1 ≤ payload.length ∧ payload.length ≤ 512 := by simpa [Packet.formOk] using h
    show pshFields _ = _
    rw [pshFields, nodeIdField_eq (id := dest) rfl, nodeIdField_eq (id := source) rfl, addrField_eq (a := addr) rfl,
      word16_length h512 rfl]
    exact if_pos (by simp [Packet.body]; omega)
  | cpl dest tag status remaining payload =>
    have h512 : payload.length ≤ 512 := by simpa [Packet.formOk] using h
    show cplFields _ = _
    rw [cplFields, nodeIdField_eq (id := dest) rfl, tagField_eq (tag := tag) rfl, word16_eq (i := 5) (v := remaining) rfl,
      word16_length h512 rfl]
    exact if_pos (by simp [Packet.body]; omega)
  | ntc source dest code arg =>
    have argument : BitVec.ofNat 32 (beNat (slice (Packet.ntc source dest code arg).body 7 4)) = arg := by
      rw [show slice (Packet.ntc source dest code arg).body 7 4 = beBytes 4 arg.toNat from rfl,
        beNat_beBytes 4 _ (by simpa using arg.isLt), BitVec.ofNat_toNat, BitVec.setWidth_eq]
    show ntcFields _ = _
    rw [ntcFields, nodeIdField_eq (id := source) rfl, nodeIdField_eq (id := dest) rfl, word16_eq (v := code) rfl, argument]
    rfl

theorem Packet.body_ne_nil (p : Packet) : p.body ≠ [] := by cases p <;> simp [Packet.body]

/-- The bytes of a packet of good form pass the CRC check, and its body the form check (R146, R183). -/
theorem parsePacket_bytes {p : Packet} (h : p.formOk = true) : parsePacket p.bytes = some p := by
  have length : p.bytes.length - 4 = p.body.length := by simp [Packet.bytes]
  have body : p.bytes.take (p.bytes.length - 4) = p.body := by rw [length, Packet.bytes, List.take_left]
  have trailer : p.bytes.drop (p.bytes.length - 4) = beBytes 4 (crc32 p.body).toNat := by rw [length, Packet.bytes, List.drop_left]
  have long : ¬p.bytes.length < 5 := by
    have := List.length_pos_iff.2 p.body_ne_nil
    omega
  simp only [parsePacket, body, trailer]
  rw [if_neg (by simp [long]), bodyFields_body h]
  simp [h]

/-- Settles O49. -/
theorem packetsParseBack : Obligations.PacketsParseBack := by
  unfold Obligations.PacketsParseBack
  intro p h
  have parsed := parsePacket_bytes h
  refine ⟨parsed, ?_⟩
  unfold commandOfPacket
  rw [parsed]
  cases p <;> rfl

end Sys2Proof.Machine
end


section
/-! The checks of window and node images (O23), and the images that read back (O50). -/

namespace Sys2Proof.Machine

/-! ### The bytes of an image (R184, R185) -/

/-- The bytes of a slice are zero when those at its places are. -/
theorem slice_zero_iff (b : List Byte) (i n : Nat) : (∀ x ∈ slice b i n, x = 0) ↔ ∀ k, i ≤ k → k < i + n → byteAt b k = 0 := by
  constructor
  · intro h k h1 h2
    by_contra hk
    exact hk (h _ ((mem_slice b i n hk).2 ⟨k, h1, h2, rfl⟩))
  · intro h x hx
    by_contra h0
    obtain ⟨k, h1, h2, hk⟩ := (mem_slice b i n h0).1 hx
    exact h0 (hk ▸ h k h1 h2)

theorem slotOf_none (b : Byte) : slotOf b = none ↔ 32 ≤ b.toNat := by
  unfold slotOf
  split <;> simp <;> omega

theorem slotOf_getD {b : Byte} (h : b.toNat < 32) : ((slotOf b).getD 0).val = b.toNat := by simp [slotOf, h]

theorem windowImageUndefined_iff (b : List Byte) : windowImageUndefined b = true ↔
    8 ≤ (byteAt b 0).toNat ∨ 8 ≤ (byteAt b 1).toNat ∨ ∃ k, (k = 7 ∨ 17 ≤ k ∧ k ≤ 31) ∧ byteAt b k ≠ 0 := by
  have tail : ((slice b 17 15).any (· != 0)) = true ↔ ∃ k, (17 ≤ k ∧ k ≤ 31) ∧ byteAt b k ≠ 0 := by
    rw [← not_iff_not, Bool.not_eq_true, List.any_eq_false]
    simp only [bne_iff_ne, ne_eq, not_not, slice_zero_iff, not_exists, not_and]
    exact ⟨fun h k hk => h k hk.1 (by omega), fun h k h1 h2 => h k ⟨h1, by omega⟩⟩
  simp only [windowImageUndefined, Bool.or_eq_true, decide_eq_true_eq, ge_iff_le, tail, bne_iff_ne, or_assoc]
  refine or_congr_right (or_congr_right ⟨?_, ?_⟩)
  · rintro (h | ⟨k, hk, h⟩)
    · exact ⟨7, .inl rfl, h⟩
    · exact ⟨k, .inr hk, h⟩
  · rintro ⟨k, rfl | hk, h⟩
    · exact .inl h
    · exact .inr ⟨k, hk, h⟩

theorem windowOfImage_span (b : List Byte) : (windowOfImage b).span.toNat = beNat (slice b 13 4) := by
  have := beNat_slice_lt b 13 4
  simp only [windowOfImage, BitVec.toNat_ofNat]
  omega

theorem windowOfImage_base (b : List Byte) : (windowOfImage b).base.toNat = beNat (slice b 8 5) := by
  have := beNat_slice_lt b 8 5
  simp only [windowOfImage, BitVec.toNat_ofNat]
  omega

/-- The three rights of a byte (Table 11-5). -/
theorem rights_none (b : Byte) : (b.getLsbD 0 || b.getLsbD 1 || b.getLsbD 2) = false ↔ b.toNat % 8 = 0 := by revert b; decide

theorem windowOfImage_badValue (b : List Byte) : (windowOfImage b).badValue = true ↔
    (byteAt b 5).toNat < 8 ∨ 31 < (byteAt b 5).toNat ∨ beNat (slice b 13 4) = 0 ∨ 16777216 < beNat (slice b 13 4)
      ∨ (byteAt b 2).toNat < (byteAt b 3).toNat ∧ 2 ^ (byteAt b 5).toNat < beNat (slice b 13 4)
      ∨ 0xFFFFFFFFFF < beNat (slice b 8 5) + ((byteAt b 3).toNat - (byteAt b 2).toNat) * 2 ^ (byteAt b 5).toNat + beNat (slice b 13 4) - 1
      ∨ byteAt b 6 ≠ 0 ∧ (byteAt b 0).getLsbD 1 = false ∨ (byteAt b 1).toNat % 8 = 0 ∨ 15 < (byteAt b 6).toNat := by
  have past : 2 ^ 40 < (windowOfImage b).endAddr ↔ 0xFFFFFFFFFF < beNat (slice b 8 5)
      + ((byteAt b 3).toNat - (byteAt b 2).toNat) * 2 ^ (byteAt b 5).toNat + beNat (slice b 13 4) - 1 := by
    rw [Window.endAddr, windowOfImage_span, windowOfImage_base]
    simp only [windowOfImage]
    omega
  simp only [Window.badValue, Bool.or_eq_true, Bool.and_eq_true, decide_eq_true_eq, windowOfImage_span, past, or_assoc]
  simp only [windowOfImage, bne_iff_ne, Bool.not_eq_true', ne_eq, rights_none]

theorem nodeImageOk_iff (b : List Byte) : nodeImageOk b = true ↔
    byteAt b 0 = 1 ∧ 1 ≤ beNat (slice b 2 2) ∧ beNat (slice b 2 2) ≤ 4094
      ∧ (beNat (slice b 4 2) = 64 ∨ beNat (slice b 4 2) = 128 ∨ beNat (slice b 4 2) = 256 ∨ beNat (slice b 4 2) = 512)
      ∧ 1 ≤ (byteAt b 6).toNat ∧ (byteAt b 6).toNat ≤ 8 ∧ 1 ≤ (byteAt b 7).toNat ∧ (byteAt b 8).toNat ≤ 15
      ∧ ∀ k, 11 ≤ k → k ≤ 15 → byteAt b k = 0 := by
  have tail : (slice b 11 5).all (· == 0) = true ↔ ∀ k, 11 ≤ k → k ≤ 15 → byteAt b k = 0 := by
    simp only [List.all_eq_true, beq_iff_eq, slice_zero_iff]
    exact forall_congr' fun k => imp_congr_right fun _ => imp_congr_left (by omega)
  simp only [nodeImageOk, Bool.and_eq_true, Bool.or_eq_true, decide_eq_true_eq, beq_iff_eq, tail, and_assoc, or_assoc]

/-! ### The checks (R50, R51, R53, R55, R56) -/

theorem firstIx_isSome {n : Nat} {p : Fin n → Bool} : (firstIx n p).isSome = true ↔ ∃ i, p i = true := by
  rw [Option.isSome_iff_ne_none, ne_eq, firstIx_none]
  simp

theorem TranslationUnit.overlapsOther_iff (u : TranslationUnit) (i : WinIx) (w : Window) : u.overlapsOther i w = true ↔
    ∃ j : WinIx, j ≠ i ∧ (look u.windows j).valid = true ∧ (look u.windows j).firstUnit.toNat ≤ w.lastUnit.toNat
      ∧ w.firstUnit.toNat ≤ (look u.windows j).lastUnit.toNat := by
  simp [TranslationUnit.overlapsOther, firstIx_isSome, Window.sharesUnit, and_assoc]

theorem TranslationUnit.otherHolds_iff (u : TranslationUnit) (i : SlotIx) (id : NodeId) : u.otherHolds i id = true ↔
    ∃ j : SlotIx, j ≠ i ∧ (look u.nodes j).state ≠ .unused ∧ (look u.nodes j).nodeId = id := by
  simp [TranslationUnit.otherHolds, firstIx_isSome, and_assoc]

theorem TranslationUnit.windowRefusal_valid (u : TranslationUnit) (i : WinIx) {image : List Byte} (h : (byteAt image 0).getLsbD 0 = true) :
    u.windowRefusal i image =
      if byteAt image 2 = 0 then some .unitZero
      else if (byteAt image 3).toNat < (byteAt image 2).toNat then some .badRange
      else if 32 ≤ (byteAt image 4).toNat ∨ (look u.nodes (windowOfImage image).slot).state = .unused then some .nodeSlot
      else if ∃ j : WinIx, j ≠ i ∧ (look u.windows j).valid = true ∧
          (look u.windows j).firstUnit.toNat ≤ (byteAt image 3).toNat ∧ (byteAt image 2).toNat ≤ (look u.windows j).lastUnit.toNat
        then some .overlap
      else if (windowOfImage image).badValue = true ∨ windowImageUndefined image = true then some .badValue
      else none := by
  have overlaps := u.overlapsOther_iff i (windowOfImage image)
  simp only [TranslationUnit.windowRefusal, h, slotOf_none, overlaps]
  rfl

/-- Settles O23. -/
theorem imageChecksInOrder : Obligations.ImageChecksInOrder := by
  unfold Obligations.ImageChecksInOrder
  refine ⟨fun u i image => ⟨fun h => if_pos h, u.windowRefusal_valid i⟩, ?bad, ?node, ?held, fun s i image => ⟨fun h => if_pos h, fun h => ?refusal⟩⟩
  case bad =>
    rintro image first last stride span rfl rfl rfl rfl
    rw [windowOfImage_badValue, windowImageUndefined_iff]
    simp only [or_assoc]
    refine or_congr_right (or_congr_right (or_congr_right (or_congr_right (or_congr_right (or_congr_right (or_congr_right ?_))))))
    exact or_left_comm
  case node =>
    rintro image id size rfl rfl
    exact nodeImageOk_iff image
  case held =>
    intro s n
    simp only [State.inUse_iff, Exchange.inWork_iff]
  case refusal =>
    have held := s.tu.otherHolds_iff i (nodeOfImage image).nodeId
    simp only [State.nodeRefusal, if_neg h, held]

/-! ### Images that read back (R60, R184, R185) -/

theorem beBytes_beNat (b : List Byte) : beBytes b.length (beNat b) = b := by
  induction b using List.reverseRecOn with
  | nil => rfl
  | append_singleton b x ih =>
    have value : beNat (b ++ [x]) = beNat b * 256 + x.toNat := by rw [beNat_append]; simp [beNat]
    have low : BitVec.ofNat 8 (beNat b * 256 + x.toNat) = x := by
      apply BitVec.eq_of_toNat_eq
      rw [BitVec.toNat_ofNat]
      have := x.isLt
      omega
    have high : (beNat b * 256 + x.toNat) / 256 = beNat b := by have := x.isLt; omega
    rw [List.length_append, List.length_singleton, beBytes, value, high, ih, low]

theorem beBytes_slice {b : List Byte} {i n : Nat} (h : i + n ≤ b.length) : beBytes n (beNat (slice b i n)) = slice b i n := by
  have length : (slice b i n).length = n := by rw [slice_length]; omega
  have read := beBytes_beNat (slice b i n)
  rwa [length] at read

theorem slice_succ {b : List Byte} {i : Nat} (n : Nat) (h : i < b.length) : slice b i (n + 1) = byteAt b i :: slice b (i + 1) n := by
  rw [slice, List.drop_eq_getElem_cons h, List.take_succ_cons, byteAt, List.getD_eq_getElem _ _ h, slice]

theorem slice_zeros {b : List Byte} {i n : Nat} (h : i + n ≤ b.length) (h0 : ∀ k, i ≤ k → k < i + n → byteAt b k = 0) :
    slice b i n = List.replicate n 0 :=
  List.eq_replicate_iff.2 ⟨by rw [slice_length]; omega, (slice_zero_iff b i n).2 h0⟩

/-- The attributes of a valid window with no undefined bit set are read back (Table 11-5). -/
theorem attributes_read : ∀ b : Byte, b.getLsbD 0 = true → b.toNat < 8 →
    bitAt true 0 + bitAt (b.getLsbD 1) 1 + bitAt (b.getLsbD 2) 2 = b := by decide

theorem rights_read : ∀ b : Byte, b.toNat < 8 → bitAt (b.getLsbD 0) 0 + bitAt (b.getLsbD 1) 1 + bitAt (b.getLsbD 2) 2 = b := by decide

/-- An accepted window image names a slot and holds no undefined encoding. -/
theorem TranslationUnit.windowRefusal_none {u : TranslationUnit} {i : WinIx} {image : List Byte}
    (hv : (byteAt image 0).getLsbD 0 = true) (h : u.windowRefusal i image = none) :
    (byteAt image 4).toNat < 32 ∧ windowImageUndefined image = false := by
  rw [TranslationUnit.windowRefusal_valid u i hv] at h
  split_ifs at h with _ _ hslot _ hbad
  exact ⟨by omega, by simpa using fun hu => hbad (.inr hu)⟩

theorem acceptedWindow_image {u : TranslationUnit} {i : WinIx} {image : List Byte} (hlen : image.length = 32)
    (hv : (byteAt image 0).getLsbD 0 = true) (h : u.windowRefusal i image = none) : (acceptedWindow image).image = image := by
  obtain ⟨hslot, hdefined⟩ := TranslationUnit.windowRefusal_none hv h
  have undefined := mt (windowImageUndefined_iff image).2 (by simp [hdefined])
  obtain ⟨hattributes, hrights, hzero⟩ : ¬8 ≤ (byteAt image 0).toNat ∧ ¬8 ≤ (byteAt image 1).toNat
      ∧ ¬∃ k, (k = 7 ∨ 17 ≤ k ∧ k ≤ 31) ∧ byteAt image k ≠ 0 := by simpa only [not_or] using undefined
  have zero {k : Nat} (hk : k = 7 ∨ 17 ≤ k ∧ k ≤ 31) : byteAt image k = 0 := by
    by_contra hne
    exact hzero ⟨k, hk, hne⟩
  have head : slice image 0 8 = [byteAt image 0, byteAt image 1, byteAt image 2, byteAt image 3, byteAt image 4, byteAt image 5,
      byteAt image 6, 0] := by
    rw [slice_succ 7 (by omega), slice_succ 6 (by omega), slice_succ 5 (by omega), slice_succ 4 (by omega), slice_succ 3 (by omega),
      slice_succ 2 (by omega), slice_succ 1 (by omega), slice_succ 0 (by omega), zero (k := 7) (.inl rfl)]
    rfl
  have parts : image = slice image 0 8 ++ slice image 8 5 ++ slice image 13 4 ++ slice image 17 15 := by
    rw [slice_join image 0 8 5, slice_join image 0 13 4, slice_join image 0 17 15, slice_all hlen]
  have attributes := attributes_read _ hv (by omega)
  have rights := rights_read (byteAt image 1) (by omega)
  have slot : BitVec.ofNat 8 ((slotOf (byteAt image 4)).getD 0).val = byteAt image 4 := by
    rw [slotOf_getD hslot, BitVec.ofNat_toNat, BitVec.setWidth_eq]
  rw [acceptedWindow, if_pos hv]
  conv_rhs => rw [parts, head, ← beBytes_slice (i := 8) (n := 5) (by omega), ← beBytes_slice (i := 13) (n := 4) (by omega),
    slice_zeros (i := 17) (n := 15) (by omega) fun k h1 h2 => zero (.inr (by omega))]
  have valid : (windowOfImage image).valid = true := rfl
  rw [Window.image, if_pos valid, windowOfImage_base, windowOfImage_span, Window.rights]
  simp only [windowOfImage, attributes, rights, slot]

theorem acceptedNode_image {s : State} {i : SlotIx} {image : List Byte} (hlen : image.length = 16) (h0 : byteAt image 0 ≠ 0)
    (h : s.nodeRefusal i image = none) (inUse : Bool) (busy : Nat) : (acceptedNode image).image inUse busy
      = [1, if inUse then 1 else 0] ++ slice image 2 7 ++ [0, BitVec.ofNat 8 busy, 0, 0, 0, 0, 0] := by
  have hok : nodeImageOk image = true := by
    by_contra hbad
    rw [State.nodeRefusal, if_neg h0, if_pos (by simpa using hbad)] at h
    simp at h
  obtain ⟨-, -, hid, -⟩ := (nodeImageOk_iff image).1 hok
  have id : (nodeOfImage image).nodeId.toNat = beNat (slice image 2 2) := by simp only [nodeOfImage, BitVec.toNat_ofNat]; omega
  have size : (nodeOfImage image).pieceSize.toNat = beNat (slice image 4 2) := by
    have := beNat_slice_lt image 4 2
    simp only [nodeOfImage, BitVec.toNat_ofNat]
    omega
  have fields : slice image 2 7 = slice image 2 2 ++ slice image 4 2 ++ [byteAt image 6, byteAt image 7, byteAt image 8] := by
    have last : slice image 6 3 = [byteAt image 6, byteAt image 7, byteAt image 8] := by
      rw [slice_succ 2 (by omega), slice_succ 1 (by omega), slice_succ 0 (by omega)]
      rfl
    rw [← last, slice_join image 2 2 2, slice_join image 2 4 3]
  rw [acceptedNode, if_neg h0, fields]
  show [BitVec.ofNat 8 1, bitAt inUse 0] ++ beBytes 2 (nodeOfImage image).nodeId.toNat ++ beBytes 2 (nodeOfImage image).pieceSize.toNat
    ++ [byteAt image 6, byteAt image 7, byteAt image 8, BitVec.ofNat 8 0, BitVec.ofNat 8 busy] ++ List.replicate 5 0 = _
  rw [id, size, beBytes_slice (by omega), beBytes_slice (by omega), bitAt_zero]
  simp

/-- Settles O50. -/
theorem imagesReadBack : Obligations.ImagesReadBack := by
  unfold Obligations.ImagesReadBack
  exact ⟨fun u i image hlen hv h => acceptedWindow_image hlen hv h, fun s i image inUse busy hlen h0 h => acceptedNode_image hlen h0 h inUse busy⟩

end Sys2Proof.Machine
end


section
/-! Management writes: what the space makes of one (R166), how the line answers it (R167), the settings (O20), and the writes that are
refused (O21). -/

namespace Sys2Proof.Machine

/-! ### The space judges a write (R166) -/

section
variable {s : State} {offset : Nat} {data : List Byte} {r : Region}

theorem Region.aligned_windows (o n : Nat) : Region.windows.aligned o n = true ↔ (o - 0x1000) % 32 = 0 ∧ n % 32 = 0 := by
  show (decide ((o - 0x1000) % 32 = 0) && decide (n % 32 = 0)) = true ↔ _
  rw [Bool.and_eq_true, decide_eq_true_eq, decide_eq_true_eq]

theorem Region.aligned_nodes (o n : Nat) : Region.nodes.aligned o n = true ↔ (o - 0x2000) % 16 = 0 ∧ n % 16 = 0 := by
  show (decide ((o - 0x2000) % 16 = 0) && decide (n % 16 = 0)) = true ↔ _
  rw [Bool.and_eq_true, decide_eq_true_eq, decide_eq_true_eq]

theorem writeRegion_accepted (hr : regionOf offset data.length = some r) (hw : r.writable = true)
    (ha : r.aligned offset data.length = true) : writeRegion offset data.length = .ok r := by
  simp [writeRegion, hr, hw, ha]

theorem State.writeSpace_error {e : FaultCode × BitVec 16} (h : writeRegion offset data.length = .error e) :
    s.writeSpace offset data = .error e := by
  simp only [State.writeSpace, h]

theorem writeRegion_unmapped (hr : regionOf offset data.length = none) : writeRegion offset data.length = .error (.range, 0) := by
  simp only [writeRegion, hr]

theorem writeRegion_readOnly (hr : regionOf offset data.length = some r) (hw : r.writable = false) :
    writeRegion offset data.length = .error (.access, BitVec.ofNat 16 (r.base / 256)) := by
  simp only [writeRegion, hr, hw, if_true]
  rfl

theorem writeRegion_misaligned (hr : regionOf offset data.length = some r) (hw : r.writable = true)
    (ha : r.aligned offset data.length = false) : writeRegion offset data.length = .error (.refused, 0x0008) := by
  simp only [writeRegion, hr, hw, Bool.true_eq_false, if_false, ha, if_true]
  rfl

theorem State.writeSpace_settings {place : Nat} (h1 : 1 ≤ data.length) (h7 : place + data.length ≤ 7) :
    s.writeSpace (0x100 + place) data = s.writeSettings place data := by
  have hr : regionOf (0x100 + place) data.length = some .settings :=
    regionOf_eq .settings (show 0x100 ≤ _ by omega) (show _ ≤ 0x100 + 7 by omega) h1
  have hplace : 0x100 + place - Region.settings.base = place := by show 0x100 + place - 0x100 = place; omega
  simp only [State.writeSpace, writeRegion_accepted hr rfl rfl, hplace]

theorem State.writeSpace_command (code arg : Byte) : s.writeSpace 0x400 [code, arg] = s.runCommand code arg := by
  have hr : regionOf 0x400 [code, arg].length = some .command := regionOf_eq .command (Nat.le_refl _) (Nat.le_refl _) Nat.two_pos
  rw [State.writeSpace, writeRegion_accepted hr rfl rfl]
  rfl

end

/-! ### A write from the line (R167) -/

theorem unitZeroRequest_offset (xno : Xno) (offset : BitVec 24) (data : List Byte) : (unitZeroRequest xno offset data).offset = offset.toNat := by
  show beNat (beBytes 3 offset.toNat) = offset.toNat
  exact beNat_beBytes 3 _ (by simpa using offset.isLt)

theorem unitZeroRequest_data (xno : Xno) (offset : BitVec 24) (data : List Byte) : (unitZeroRequest xno offset data).data = data := rfl

/-- The command is, with RESETN high, the handling of a WRITE to unit 0 (log 20). -/
def WritesUnitZero (c : Instr) (xno : Xno) (offset : BitVec 24) (data : List Byte) : Prop :=
  ∀ s : State, exec c s = .next (s.whenRunning (·.handleRequest (unitZeroRequest xno offset data)))

section
variable {s t : State} {l : LinePort} {xno : Xno} {offset : BitVec 24} {data : List Byte} {c : Instr}

theorem exec_lineWrite (hc : WritesUnitZero c xno offset data) (h : s.TakesNew (unitZeroRequest xno offset data) l) :
    exec c s = .next ((s.onLp fun _ => l).managementWrite (unitZeroRequest xno offset data)) :=
  exec_running h.1.1 (hc s) (State.unitZero_handled h)

/-- A write that is applied is answered DONE, stored; it leaves the Line Port for the answer (R167, R177). -/
theorem exec_lineWrite_done {d : Deferred} (hc : WritesUnitZero c xno offset data) (h : s.TakesNew (unitZeroRequest xno offset data) l)
    (hw : State.writeSpace offset.toNat data { s with lp := l } = .ok (t, d)) (hd : d ≠ .segreset) :
    exec c s = .next { t with lp := l.givesStored (unitZeroRequest xno offset data) .done [] d.atReplyEnd } := by
  obtain ⟨-, -, hlp, -⟩ := State.writeSpace_samePort hw
  have hw' : (s.onLp fun _ => l).writeSpace offset.toNat data = .ok (t, d) := hw
  rw [exec_lineWrite hc h]
  simp only [State.managementWrite, unitZeroRequest_offset, unitZeroRequest_data, hw', if_neg hd, State.answer_stored, hlp]

/-- A write that a check refuses is answered with that check's FAULT, stored (R166, R167). -/
theorem exec_lineWrite_refused {e : FaultCode × BitVec 16} (hc : WritesUnitZero c xno offset data)
    (h : s.TakesNew (unitZeroRequest xno offset data) l) (hw : State.writeSpace offset.toNat data { s with lp := l } = .error e) :
    exec c s = .next { s with
      lp := l.givesStored (unitZeroRequest xno offset data) .fault (e.1.code :: beBytes 2 e.2.toNat) .nothing } := by
  have hw' : (s.onLp fun _ => l).writeSpace offset.toNat data = .error e := hw
  rw [exec_lineWrite hc h]
  simp only [State.managementWrite, unitZeroRequest_offset, unitZeroRequest_data, hw']
  rfl

end

/-! ### The settings (R7, R171) -/

theorem settingOk_iff (place : Nat) (b : Byte) : settingOk place b = true ↔
    (place = 0 ∨ place = 1 ∨ place = 2) ∧ 1 ≤ b.toNat ∨ place = 3 ∧ 1 ≤ b.toNat ∧ b.toNat ≤ 15
      ∨ place = 4 ∧ 1 ≤ b.toNat ∧ b.toNat ≤ 30 ∨ place = 5 ∧ b.toNat ≤ 1 ∨ place = 6 ∧ b.toNat ≤ 0x7F := by
  unfold settingOk
  split <;> simp_all

/-- A field of the settings, found at one place, takes its byte of a run that covers that place. -/
theorem Settings.setRun_field {get : Settings → Byte} {p : Nat} (hget : ∀ t q b, get (Settings.set q b t) = if q = p then b else get t)
    (place : Nat) (data : List Byte) (t : Settings) :
    get (t.setRun place data) = if place ≤ p ∧ p < place + data.length then byteAt data (p - place) else get t := by
  induction data generalizing place t with
  | nil => rw [if_neg (by simp only [List.length_nil]; omega)]; rfl
  | cons b bs ih =>
    rw [Settings.setRun, ih, hget, List.length_cons]
    rcases Nat.lt_trichotomy place p with hlt | rfl | hgt
    · obtain ⟨k, rfl⟩ : ∃ k, p = place + 1 + k := ⟨p - (place + 1), by omega⟩
      have later : place + 1 + k - place = k + 1 := by omega
      have here : place + 1 + k - (place + 1) = k := by omega
      have within : (place + 1 ≤ place + 1 + k ∧ place + 1 + k < place + 1 + bs.length)
          ↔ (place ≤ place + 1 + k ∧ place + 1 + k < place + (bs.length + 1)) := by omega
      rw [later, here, if_neg (by omega : ¬place = place + 1 + k)]
      exact if_congr within (by simp [byteAt]) rfl
    · rw [if_neg (by omega), if_pos rfl, if_pos (by omega), Nat.sub_self]
      rfl
    · rw [if_neg (by omega), if_neg (by omega), if_neg (by omega)]

theorem Settings.setRun_eq (place : Nat) (data : List Byte) (t : Settings) : t.setRun place data = {
    hold := if place ≤ 0 ∧ 0 < place + data.length then byteAt data (0 - place) else t.hold
    retention := if place ≤ 1 ∧ 1 < place + data.length then byteAt data (1 - place) else t.retention
    segmentHold := if place ≤ 2 ∧ 2 < place + data.length then byteAt data (2 - place) else t.segmentHold
    linkLoss := if place ≤ 3 ∧ 3 < place + data.length then byteAt data (3 - place) else t.linkLoss
    station := if place ≤ 4 ∧ 4 < place + data.length then byteAt data (4 - place) else t.station
    permit := if place ≤ 5 ∧ 5 < place + data.length then byteAt data (5 - place) else t.permit
    mask := if place ≤ 6 ∧ 6 < place + data.length then byteAt data (6 - place) else t.mask } := by
  rw [← Settings.setRun_field (get := Settings.hold) (p := 0) fun t q b => ?hold,
    ← Settings.setRun_field (get := Settings.retention) (p := 1) fun t q b => ?retention,
    ← Settings.setRun_field (get := Settings.segmentHold) (p := 2) fun t q b => ?segmentHold,
    ← Settings.setRun_field (get := Settings.linkLoss) (p := 3) fun t q b => ?linkLoss,
    ← Settings.setRun_field (get := Settings.station) (p := 4) fun t q b => ?station,
    ← Settings.setRun_field (get := Settings.permit) (p := 5) fun t q b => ?permit,
    ← Settings.setRun_field (get := Settings.mask) (p := 6) fun t q b => ?mask]
  all_goals
    unfold Settings.set
    split <;> simp_all

theorem unitZeroWrite_bytes (high mid low : Byte) (data : List Byte) :
    unitZeroWrite (high ++ mid ++ low) data = 0 :: high :: mid :: low :: data := by
  have value : (high ++ mid ++ low).toNat = beNat [high, mid, low] := by
    rw [BitVec.toNat_append, BitVec.toNat_append, ← Nat.shiftLeft_add_eq_or_of_lt low.isLt, ← Nat.shiftLeft_add_eq_or_of_lt mid.isLt,
      Nat.shiftLeft_eq, Nat.shiftLeft_eq]
    simp only [beNat, List.length_cons, List.length_nil]
    omega
  have bytes : beBytes 3 (beNat [high, mid, low]) = [high, mid, low] := beBytes_beNat [high, mid, low]
  rw [unitZeroWrite, value, bytes]
  rfl

/-- The bytes of a run within the seven fields, in range: each field takes its byte, and the station in force waits for the DONE. -/
theorem State.writeSpace_settingsOk {s : State} {place : Nat} {data : List Byte} (h1 : 1 ≤ data.length) (h7 : place + data.length ≤ 7)
    (hok : ∀ k, k < data.length → settingOk (place + k) (byteAt data k) = true) : s.writeSpace (0x100 + place) data
      = .ok ({ s with mu := { s.mu with settings := s.mu.settings.setRun place data } },
        if place ≤ 4 ∧ 4 < place + data.length then .station else .nothing) := by
  have covers : coversStation place data.length = true ↔ place ≤ 4 ∧ 4 < place + data.length := by simp [coversStation]
  rw [State.writeSpace_settings h1 h7, State.writeSettings, firstBadSetting_none hok]
  simp only [covers]
  rfl

theorem State.writeSpace_settingsBad {s : State} {place k : Nat} {data : List Byte} (h7 : place + data.length ≤ 7)
    (hk : k < data.length) (hbad : settingOk (place + k) (byteAt data k) = false)
    (hfirst : ∀ j, j < k → settingOk (place + j) (byteAt data j) = true) :
    s.writeSpace (0x100 + place) data = .error (refusedDetail (place + k) .badValue) := by
  rw [State.writeSpace_settings (by omega) h7, State.writeSettings, firstBadSetting_some hk hbad hfirst]

/-- A refusal as the line carries it: its first byte names the field, slot or command, its second the reason (R58, R166). -/
theorem refusal_payload (high : Nat) (reason : RefusalReason) :
    (refusedDetail high reason).1.code :: beBytes 2 (refusedDetail high reason).2.toNat
      = [0x0B, BitVec.ofNat 8 high, BitVec.ofNat 8 reason.code] := by
  have low : reason.code < 256 := by cases reason <;> decide
  rw [show beBytes 2 (refusedDetail high reason).2.toNat = _ from beBytes_detailOf low]
  rfl

theorem settingsOffset_toNat {place : Nat} (h : place ≤ 7) : (BitVec.ofNat 24 (0x100 + place)).toNat = 0x100 + place := by
  rw [BitVec.toNat_ofNat]
  omega

section
variable {s : State} {l : LinePort} {xno : Xno} {place : Nat} {data : List Byte} {c : Instr}

theorem exec_settings_done (h1 : 1 ≤ data.length) (h7 : place + data.length ≤ 7) (hc : WritesUnitZero c xno (BitVec.ofNat 24 (0x100 + place)) data)
    (h : s.TakesNew (unitZeroRequest xno (BitVec.ofNat 24 (0x100 + place)) data) l)
    (hok : ∀ k, k < data.length → settingOk (place + k) (byteAt data k) = true) : exec c s = .next { s with
      lp := l.givesStored (unitZeroRequest xno (BitVec.ofNat 24 (0x100 + place)) data) .done []
        (if place ≤ 4 ∧ 4 < place + data.length then .station else .nothing)
      mu := { s.mu with settings := s.mu.settings.setRun place data } } := by
  rw [exec_lineWrite_done hc h (by rw [settingsOffset_toNat (by omega), State.writeSpace_settingsOk h1 h7 hok]) (by split <;> simp)]
  split <;> rfl

theorem exec_settings_refused (h7 : place + data.length ≤ 7) (hc : WritesUnitZero c xno (BitVec.ofNat 24 (0x100 + place)) data)
    (h : s.TakesNew (unitZeroRequest xno (BitVec.ofNat 24 (0x100 + place)) data) l) {k : Nat} (hk : k < data.length)
    (hbad : settingOk (place + k) (byteAt data k) = false) (hfirst : ∀ j, j < k → settingOk (place + j) (byteAt data j) = true) :
    exec c s = .next { s with
      lp := l.givesStored (unitZeroRequest xno (BitVec.ofNat 24 (0x100 + place)) data) .fault [0x0B, BitVec.ofNat 8 (place + k), 7]
        .nothing } := by
  rw [exec_lineWrite_refused hc h (by rw [settingsOffset_toNat (by omega), State.writeSpace_settingsBad h7 hk hbad hfirst]),
    refusal_payload]
  rfl

end

/-- Settles O20. -/
theorem settingsAreWritten : Obligations.SettingsAreWritten := by
  unfold Obligations.SettingsAreWritten
  refine ⟨fun s l xno place data c h1 h7 hc h => ?run, settingOk_iff, fun place data t _ => ?fields, unitZeroWrite_bytes,
    fun s xno => ?rows, fun s l xno value h => ?station⟩
  case run =>
    have writes : WritesUnitZero c xno (BitVec.ofNat 24 (0x100 + place)) data := by
      rcases hc with rfl | rfl | rfl <;> exact fun _ => rfl
    exact ⟨exec_settings_done h1 h7 writes h, fun k hk hbad hfirst => exec_settings_refused h7 writes h hk hbad hfirst⟩
  case fields =>
    have first : (if place ≤ 0 ∧ 0 < place + data.length then byteAt data (0 - place) else t.hold)
        = if place = 0 ∧ 0 < data.length then byteAt data 0 else t.hold := by
      cases place <;> simp
    rw [Settings.setRun_eq, first]
  case rows =>
    refine ⟨fun offset data c hc => ?_, fun value => rfl, fun code arg c hc hcode => ?_⟩
    · simp only [List.mem_cons, List.not_mem_nil, or_false] at hc
      rcases hc with rfl | rfl | rfl | rfl <;> rfl
    · simp only [List.mem_cons, List.not_mem_nil, or_false] at hc
      rcases hc with rfl | rfl | rfl | rfl | rfl | rfl <;> subst hcode <;> rfl
  case station =>
    have inRange : settingOk 4 value = true ↔ 1 ≤ value.toNat ∧ value.toNat ≤ 30 := by simp [settingOk]
    refine ⟨fun h1 h30 => ?_, fun hout => ?_⟩
    · refine exec_settings_done (place := 4) (data := [value]) (Nat.le_refl 1) (by simp) (fun _ => rfl) h fun k hk => ?_
      obtain rfl : k = 0 := by simpa using hk
      exact inRange.2 ⟨h1, h30⟩
    · refine exec_settings_refused (place := 4) (data := [value]) (k := 0) (by simp) (fun _ => rfl) h (by simp) ?_ fun j hj => absurd hj (Nat.not_lt_zero j)
      exact Bool.eq_false_iff.2 fun hin => by have := inRange.1 hin; omega

/-! ### Writes that are refused (O21) -/

section
variable {s : State} {l : LinePort} {e : FaultCode × BitVec 16}

/-- The checks of the images do not look at the Line Port. -/
theorem State.loadWindows_refused_line {n : Nat} {images : List (List Byte)} (h : State.loadWindows n images s = .error e) :
    State.loadWindows n images { s with lp := l } = .error e := by
  induction images generalizing n s with
  | nil => cases h
  | cons image rest ih =>
    rw [State.loadWindows] at h ⊢
    by_cases hn : n < 16
    · rw [dif_pos hn] at h ⊢
      cases hr : s.tu.windowRefusal ⟨n, hn⟩ image with
      | some reason =>
        simp only [hr] at h ⊢
        exact h
      | none =>
        simp only [hr] at h ⊢
        exact ih h
    · rw [dif_neg hn] at h
      cases h

theorem State.loadNodes_refused_line {n : Nat} {images : List (List Byte)} (h : State.loadNodes n images s = .error e) :
    State.loadNodes n images { s with lp := l } = .error e := by
  induction images generalizing n s with
  | nil => cases h
  | cons image rest ih =>
    rw [State.loadNodes] at h ⊢
    by_cases hn : n < 32
    · rw [dif_pos hn] at h ⊢
      have same : State.nodeRefusal { s with lp := l } ⟨n, hn⟩ image = s.nodeRefusal ⟨n, hn⟩ image := rfl
      rw [same]
      cases hr : s.nodeRefusal ⟨n, hn⟩ image with
      | some reason =>
        simp only [hr] at h ⊢
        exact h
      | none =>
        simp only [hr] at h ⊢
        exact ih h
    · rw [dif_neg hn] at h
      cases h

theorem State.clearQuietSlot_refused_line {arg : Byte} (h : s.clearQuietSlot arg = .error e) :
    State.clearQuietSlot arg { s with lp := l } = .error e := by
  unfold State.clearQuietSlot at h ⊢
  cases hs : slotOf arg with
  | none =>
    simp only [hs] at h ⊢
    exact h
  | some i =>
    simp only [hs] at h ⊢
    split at h
    · next hu => exact (if_pos hu).trans h
    · cases h

theorem State.runCommand_refused_line {code arg : Byte} (h : s.runCommand code arg = .error e) :
    State.runCommand code arg { s with lp := l } = .error e := by
  unfold State.runCommand at h ⊢
  generalize code.toNat = n at h ⊢
  match n with
  | 4 =>
    simp only at h ⊢
    cases hq : s.clearQuietSlot arg with
    | ok t => simp [hq] at h
    | error x =>
      rw [State.clearQuietSlot_refused_line hq]
      simpa [hq] using h
  | 1 => cases h
  | 2 => cases h
  | 3 => cases h
  | 5 => cases h
  | 6 => cases h
  | 0 => exact h
  | n + 7 => exact h

/-- The checks of a write do not look at the Line Port (R166). -/
theorem State.writeSpace_refused_line {offset : Nat} {data : List Byte} (h : s.writeSpace offset data = .error e) :
    State.writeSpace offset data { s with lp := l } = .error e := by
  unfold State.writeSpace at h ⊢
  cases hw : writeRegion offset data.length with
  | error x =>
    simp only [hw] at h ⊢
    exact h
  | ok r =>
    simp only [hw] at h ⊢
    cases r with
    | settings =>
      simp only [State.writeSettings] at h ⊢
      split at h <;> simp_all
    | command => exact State.runCommand_refused_line h
    | windows =>
      simp only at h ⊢
      split at h
      · cases h
      · next x hx =>
        rw [State.loadWindows_refused_line hx]
        exact h
    | nodes =>
      simp only at h ⊢
      split at h
      · cases h
      · next x hx =>
        rw [State.loadNodes_refused_line hx]
        exact h
    | _ => exact h

end

/-- A command code that no command has (R175). -/
theorem State.runCommand_unknown {s : State} {code arg : Byte} (h : code = 0 ∨ 7 ≤ code.toNat) :
    s.runCommand code arg = .error (.refused, BitVec.ofNat 16 (code.toNat * 256 + 7)) := by
  have unknown : code.toNat = 0 ∨ 7 ≤ code.toNat := h.imp (fun h0 => by rw [h0]; rfl) id
  unfold State.runCommand refusedDetail
  rw [detailOf_eq]
  generalize code.toNat = n at unknown ⊢
  match n with
  | 0 => rfl
  | n + 7 => rfl
  | 1 | 2 | 3 | 4 | 5 | 6 => omega

/-- Settles O21. -/
theorem refusedWriteChangesNothing : Obligations.RefusedWriteChangesNothing := by
  unfold Obligations.RefusedWriteChangesNothing
  refine fun s l xno offset data h => ⟨fun code detail hw c hc => ?refused, fun hr => State.writeSpace_error (writeRegion_unmapped hr),
    fun region hr => ⟨fun ho => ?readOnly, fun hreg ha => ?windows, fun hreg ha => ?nodes, fun hreg ha => ?command⟩,
    fun code arg ho hd hcode => ?unknown⟩
  case refused =>
    have writes : WritesUnitZero c xno offset data := by
      simp only [List.mem_cons, List.not_mem_nil, or_false] at hc
      rcases hc with rfl | rfl | rfl | rfl | rfl <;> exact fun _ => rfl
    exact exec_lineWrite_refused writes h (State.writeSpace_refused_line hw)
  case readOnly => exact State.writeSpace_error (writeRegion_readOnly hr ho)
  case windows =>
    subst hreg
    exact State.writeSpace_error (writeRegion_misaligned hr rfl (Bool.eq_false_iff.2 (mt (Region.aligned_windows _ _).1 ha)))
  case nodes =>
    subst hreg
    exact State.writeSpace_error (writeRegion_misaligned hr rfl (Bool.eq_false_iff.2 (mt (Region.aligned_nodes _ _).1 ha)))
  case command =>
    subst hreg
    exact State.writeSpace_error (writeRegion_misaligned hr rfl (by simpa [Region.aligned] using ha))
  case unknown =>
    subst ho hd
    exact (State.writeSpace_command code arg).trans (State.runCommand_unknown hcode)

end Sys2Proof.Machine
end


section
/-! Window and node images loaded (O22): one from the line, and several in one write. -/

namespace Sys2Proof.Machine

/-! ### Images in the space (R49, R57, R58, R166) -/

section
variable {s : State} {n : Nat} {images : List (List Byte)}

theorem flatten_length {k : Nat} (h : ∀ image ∈ images, image.length = k) : images.flatten.length = k * images.length := by
  rw [List.length_flatten, List.map_congr_left h, List.map_const', List.sum_replicate, smul_eq_mul, Nat.mul_comm]

theorem State.writeSpace_windows (hne : images ≠ []) (hn : n + images.length ≤ 16) (hlen : ∀ image ∈ images, image.length = 32) :
    (∀ t, s.loadWindows n images = .ok t → s.writeSpace (0x1000 + 32 * n) images.flatten = .ok (t, .nothing))
    ∧ ∀ e, s.loadWindows n images = .error e → s.writeSpace (0x1000 + 32 * n) images.flatten = .error e := by
  have length := flatten_length hlen
  have pos := List.length_pos_iff.2 hne
  have hr : regionOf (0x1000 + 32 * n) images.flatten.length = some .windows :=
    regionOf_eq .windows (show 0x1000 ≤ _ by omega) (show _ ≤ 0x1000 + 512 by omega) (by omega)
  have hw := writeRegion_accepted hr rfl ((Region.aligned_windows _ _).2 (by omega))
  have hplace : (0x1000 + 32 * n - Region.windows.base) / 32 = n := by show (0x1000 + 32 * n - 0x1000) / 32 = n; omega
  have hcount : images.flatten.length / 32 = images.length := by omega
  refine ⟨fun t h => ?_, fun e h => ?_⟩ <;> simp only [State.writeSpace, hw, hplace, hcount, partsOf_flatten 32 images hlen, h]

theorem State.writeSpace_nodes (hne : images ≠ []) (hn : n + images.length ≤ 32) (hlen : ∀ image ∈ images, image.length = 16) :
    (∀ t, s.loadNodes n images = .ok t → s.writeSpace (0x2000 + 16 * n) images.flatten = .ok (t.arbitrate, .nothing))
    ∧ ∀ e, s.loadNodes n images = .error e → s.writeSpace (0x2000 + 16 * n) images.flatten = .error e := by
  have length := flatten_length hlen
  have pos := List.length_pos_iff.2 hne
  have hr : regionOf (0x2000 + 16 * n) images.flatten.length = some .nodes :=
    regionOf_eq .nodes (show 0x2000 ≤ _ by omega) (show _ ≤ 0x2000 + 512 by omega) (by omega)
  have hw := writeRegion_accepted hr rfl ((Region.aligned_nodes _ _).2 (by omega))
  have hplace : (0x2000 + 16 * n - Region.nodes.base) / 16 = n := by show (0x2000 + 16 * n - 0x2000) / 16 = n; omega
  have hcount : images.flatten.length / 16 = images.length := by omega
  refine ⟨fun t h => ?_, fun e h => ?_⟩ <;> simp only [State.writeSpace, hw, hplace, hcount, partsOf_flatten 16 images hlen, h]

end

section
variable {s : State} {image : List Byte}

theorem State.writeSpace_window {i : WinIx} (hlen : image.length = 32) :
    (∀ reason, s.tu.windowRefusal i image = some reason → s.writeSpace (0x1000 + 32 * i.val) image = .error (refusedDetail i.val reason))
    ∧ (s.tu.windowRefusal i image = none → s.writeSpace (0x1000 + 32 * i.val) image = .ok (s.loadWindow i image, .nothing)) := by
  obtain ⟨done, refused⟩ := State.writeSpace_windows (s := s) (n := i.val) (images := [image]) (by simp) i.isLt (by simpa using hlen)
  rw [List.flatten_singleton] at done refused
  exact ⟨fun reason h => refused _ (by simp only [State.loadWindows, i.isLt, dif_pos, Fin.eta, h]),
    fun h => done _ (by simp only [State.loadWindows, i.isLt, dif_pos, Fin.eta, h])⟩

theorem State.writeSpace_node {i : SlotIx} (hlen : image.length = 16) :
    (∀ reason, s.nodeRefusal i image = some reason → s.writeSpace (0x2000 + 16 * i.val) image = .error (refusedDetail i.val reason))
    ∧ (s.nodeRefusal i image = none → s.writeSpace (0x2000 + 16 * i.val) image = .ok ((s.loadNode i image).arbitrate, .nothing)) := by
  obtain ⟨done, refused⟩ := State.writeSpace_nodes (s := s) (n := i.val) (images := [image]) (by simp) i.isLt (by simpa using hlen)
  rw [List.flatten_singleton] at done refused
  exact ⟨fun reason h => refused _ (by simp only [State.loadNodes, i.isLt, dif_pos, Fin.eta, h]),
    fun h => done _ (by simp only [State.loadNodes, i.isLt, dif_pos, Fin.eta, h])⟩

end

theorem windowOffset_toNat (i : WinIx) : (BitVec.ofNat 24 (0x1000 + 32 * i.val)).toNat = 0x1000 + 32 * i.val := by
  rw [BitVec.toNat_ofNat]
  omega

theorem nodeOffset_toNat (i : SlotIx) : (BitVec.ofNat 24 (0x2000 + 16 * i.val)).toNat = 0x2000 + 16 * i.val := by
  rw [BitVec.toNat_ofNat]
  omega

/-- Settles O22. -/
theorem imagesAreLoaded : Obligations.ImagesAreLoaded := by
  unfold Obligations.ImagesAreLoaded
  refine ⟨fun s l xno i image hlen h => ⟨fun reason hr => ?_, fun hr => ?_⟩, fun s l xno i image hlen h => ⟨fun reason hr => ?_, fun hr => ?_⟩,
    fun n images left hne hn hlen hs => ⟨fun hp => ?_, fun k i image reason hk hi hr hp => ?_⟩,
    fun n images left hne hn hlen hs => ⟨fun hp => ?_, fun k i image reason hk hi hr hp => ?_⟩,
    fun s t l xno offset data h hw c hc => ?_⟩
  · rw [exec_lineWrite_refused (fun _ => rfl) h (by rw [windowOffset_toNat]; exact (State.writeSpace_window hlen).1 _ hr), refusal_payload]
  · rw [exec_lineWrite_done (fun _ => rfl) h (by rw [windowOffset_toNat]; exact (State.writeSpace_window hlen).2 hr) (by simp)]
    rfl
  · rw [exec_lineWrite_refused (fun _ => rfl) h (by rw [nodeOffset_toNat]; exact (State.writeSpace_node hlen).1 _ hr), refusal_payload]
  · exact ⟨_, exec_lineWrite_done (fun _ => rfl) h (by rw [nodeOffset_toNat]; exact (State.writeSpace_node hlen).2 hr)
      (by simp), rfl⟩
  · exact (State.writeSpace_windows hne hn hlen).1 _ (State.loadWindows_all n images left hn hs hp)
  · exact (State.writeSpace_windows hne hn hlen).2 _ (State.loadWindows_first n images left hn hs k i image reason hk hi hr hp)
  · exact (State.writeSpace_nodes hne hn hlen).1 _ (State.loadNodes_all n images left hn hs hp)
  · exact (State.writeSpace_nodes hne hn hlen).2 _ (State.loadNodes_first n images left hn hs k i image reason hk hi hr hp)
  · have writes : WritesUnitZero c xno offset data := by
      simp only [List.mem_cons, List.not_mem_nil, or_false] at hc
      rcases hc with rfl | rfl | rfl | rfl <;> exact fun _ => rfl
    exact exec_lineWrite_done writes h hw (by simp)

end Sys2Proof.Machine
end


section
/-! The management space from the trunk: a held request served (O27), and the rows of writes with the trunk as their port (O28). -/

namespace Sys2Proof.Machine

/-! ### The request served (R168) -/

section
variable {s : State} {slot : MgmtIx} {rest : List MgmtIx} {q : MgmtRequest}

/-- MU takes the oldest held request it has not taken. -/
theorem State.serveNext_eq (hslot : s.tp.unserved = slot :: rest) (hq : look s.tp.slots slot = some q) :
    s.serveNext = State.arbitrate (State.serve slot q { s with tp := { s.tp with unserved := rest } }) := by
  simp only [State.serveNext, hslot, hq]
  rfl

theorem State.claimCpl_eq (p : Packet) (slot : MgmtIx) (segreset : Bool) (s : State) : s.claimCpl p slot segreset = { s with
    ia := { s.ia with cplClaims := s.ia.cplClaims ++ [⟨p, slot, true, segreset⟩] } } := rfl

theorem State.serve_unpermitted (h : s.mu.settings.permit = 0) :
    s.serve slot q = s.claimCpl (.cpl q.source q.tag 2 0 [0x0B, 0, 9]) slot false := if_pos h

theorem State.serve_beyond (h : s.mu.settings.permit ≠ 0) (ha : 2 ^ 24 ≤ q.addr.toNat) :
    s.serve slot q = s.claimCpl (.cpl q.source q.tag 3 0 [0x04, 0, 0]) slot false := by
  simp only [State.serve, if_neg h, if_pos ha]
  rfl

theorem refusalStatus_eq (code : FaultCode) : refusalStatus code = if code = .range then 3 else 2 := by cases code <;> rfl

theorem MgmtRequest.refusal_eq (q : MgmtRequest) (code : FaultCode) (detail : BitVec 16) : q.refusal (code, detail)
    = .cpl q.source q.tag (if code = .range then 3 else 2) 0 (code.code :: beBytes 2 detail.toNat) := by
  rw [← refusalStatus_eq]
  rfl

theorem State.serve_read (h : s.mu.settings.permit ≠ 0) (ha : q.addr.toNat < 2 ^ 24) {count : BitVec 16} (hb : q.body = .rqr count) :
    (∀ bytes, s.readSpace q.addr.toNat count.toNat = .ok bytes → s.serve slot q = s.claimCpl (q.answer 0 bytes) slot false)
    ∧ ∀ e, s.readSpace q.addr.toNat count.toNat = .error e → s.serve slot q = s.claimCpl (q.refusal e) slot false := by
  refine ⟨fun bytes hread => ?_, fun e hread => ?_⟩ <;>
    simp only [State.serve, if_neg h, if_neg (Nat.not_le.2 ha), hb, Nat.mod_eq_of_lt ha, hread]

theorem State.serve_write (h : s.mu.settings.permit ≠ 0) (ha : q.addr.toNat < 2 ^ 24) {payload : List Byte} (hb : q.body = .rqw payload) :
    (∀ t d, s.writeSpace q.addr.toNat payload = .ok (t, d) →
      s.serve slot q = (t.claimCpl (q.answer 0 []) slot (d == .segreset)).afterTrunkWrite d)
    ∧ ∀ e, s.writeSpace q.addr.toNat payload = .error e → s.serve slot q = s.claimCpl (q.refusal e) slot false := by
  refine ⟨fun t d hw => ?_, fun e hw => ?_⟩ <;>
    simp only [State.serve, if_neg h, if_neg (Nat.not_le.2 ha), hb, Nat.mod_eq_of_lt ha, hw]

end

/-- Settles O27. -/
theorem heldRequestIsServed : Obligations.HeldRequestIsServed := by
  unfold Obligations.HeldRequestIsServed
  intro s u slot rest q hr hslot hq hu claim hclaim
  have served : exec .managementRequestServe s = .next (u.serve slot q).arbitrate := by
    rw [hu]
    exact exec_running hr rfl (State.serveNext_eq hslot hq)
  have permit : u.mu.settings.permit = s.mu.settings.permit := by rw [hu]
  have claims : u.ia = s.ia := by rw [hu]
  subst hclaim
  rw [served, ← permit]
  refine ⟨fun h => ?_, fun h ha => ?_, fun h ha code detail hrefused => ?_, fun h ha count bytes hb hread => ?_,
    fun h ha payload v d hb hw w hwv => ?_⟩
  · rw [State.serve_unpermitted h, State.claimCpl_eq, claims]
  · rw [State.serve_beyond h ha, State.claimCpl_eq, claims]
  · have refused : u.serve slot q = u.claimCpl (q.refusal (code, detail)) slot false := by
      obtain ⟨count, hb, hread⟩ | ⟨payload, hb, hw⟩ := hrefused
      · exact (State.serve_read h ha hb).2 _ hread
      · exact (State.serve_write h ha hb).2 _ hw
    rw [refused, MgmtRequest.refusal_eq, State.claimCpl_eq, claims]
  · rw [(State.serve_read h ha hb).1 bytes hread, State.claimCpl_eq, claims]
    rfl
  · rw [(State.serve_write h ha hb).1 v d hw, hwv]
    cases d <;> rfl

/-! ### The rows with the trunk as their port (log 20) -/

theorem State.nextServes_iff {s : State} {offset : Nat} {data : List Byte} : s.nextServes offset data = true ↔
    ∃ slot ∈ s.tp.unserved.head?, ∃ q ∈ look s.tp.slots slot, q.body = .rqw data ∧ q.addr.toNat % 2 ^ 24 = offset := by
  unfold State.nextServes
  split
  · next h => simp [h]
  · next slot rest h =>
    split
    · next tag source addr payload hq =>
      simp [h, hq, and_comm]
    · next hother =>
      refine iff_of_false (by simp) ?_
      rintro ⟨x, hx, ⟨tag, source, addr, body⟩, hq, rfl, -⟩
      rw [h, List.head?_cons, Option.mem_some_iff] at hx
      subst hx
      exact hother tag source addr data hq

/-- Settles O28. -/
theorem trunkWritesAreServed : Obligations.TrunkWritesAreServed := by
  unfold Obligations.TrunkWritesAreServed
  intro s offset data c hr hc
  have from_trunk : exec c s = .next (if s.nextServes offset.toNat data then s.serveNext else s) := by
    refine exec_running (f := fun s => s.writeFrom .trunk offset data) hr ?_ rfl
    rcases hc with rfl | rfl | rfl | rfl | ⟨value, rfl, rfl, rfl⟩ | ⟨arg, rfl, h⟩
    case inr.inr.inr.inr.inr => rcases h with ⟨rfl, rfl⟩ | ⟨rfl, rfl⟩ | ⟨rfl, rfl⟩ | ⟨rfl, rfl⟩ | ⟨rfl, rfl⟩ | ⟨rfl, rfl⟩ <;> rfl
    all_goals rfl
  refine ⟨fun slot rest q hslot hq hb ha => ?_, fun h => ?_⟩
  · rw [from_trunk, if_pos (State.nextServes_iff.2 ⟨slot, by rw [hslot]; rfl, q, hq, hb, ha⟩)]
    exact (exec_running hr rfl rfl).symm
  · rw [from_trunk, if_neg fun hs => ?_]
    obtain ⟨slot, hslot, q, hq, hbody⟩ := State.nextServes_iff.1 hs
    exact h slot hslot q hq hbody

end Sys2Proof.Machine
end


section
/-! The commands of the command region: CLEAR_COUNTERS (O24), CLEAR_QUIET (O25), and the others from the line (O26). -/

namespace Sys2Proof.Machine

/-! ### A command by its port (R167, R168, R175) -/

section
variable {s : State} {l : LinePort} {xno : Xno} {code arg : Byte} {c : Instr}

theorem exec_lineCommand_done {t : State} {d : Deferred} (hc : WritesUnitZero c xno 0x000400 [code, arg])
    (h : s.TakesNew (unitZeroRequest xno 0x000400 [code, arg]) l) (hw : State.runCommand code arg { s with lp := l } = .ok (t, d))
    (hd : d ≠ .segreset) :
    exec c s = .next { t with lp := l.givesStored (unitZeroRequest xno 0x000400 [code, arg]) .done [] d.atReplyEnd } :=
  exec_lineWrite_done hc h ((State.writeSpace_command code arg).trans hw) hd

theorem exec_lineCommand_refused {reason : RefusalReason} (hc : WritesUnitZero c xno 0x000400 [code, arg])
    (h : s.TakesNew (unitZeroRequest xno 0x000400 [code, arg]) l)
    (hw : State.runCommand code arg { s with lp := l } = .error (refusedDetail arg.toNat reason)) : exec c s = .next { s with
      lp := l.givesStored (unitZeroRequest xno 0x000400 [code, arg]) .fault [0x0B, arg, BitVec.ofNat 8 reason.code] .nothing } := by
  rw [exec_lineWrite_refused hc h ((State.writeSpace_command code arg).trans hw), refusal_payload, BitVec.ofNat_toNat, BitVec.setWidth_eq]

variable {slot : MgmtIx} {rest : List MgmtIx} {tag : BitVec 5} {source : NodeId}

/-- A held RQW of a command, served by the row of that command. -/
theorem exec_trunkCommand {u : State} (hr : s.resetn = true) (hslot : s.tp.unserved = slot :: rest)
    (hq : look s.tp.slots slot = some ⟨tag, source, 0x400, .rqw [code, arg]⟩) (hpermit : s.mu.settings.permit ≠ 0)
    (hu : u = { s with tp := { s.tp with unserved := rest } })
    (hc : exec c s = exec .managementRequestServe s) :
    (∀ v, u.runCommand code arg = .ok (v, .nothing) → exec c s = .next (State.arbitrate { v with
      ia := { v.ia with cplClaims := v.ia.cplClaims ++ [⟨.cpl source tag 0 0 [], slot, true, false⟩] } }))
    ∧ ∀ reason, u.runCommand code arg = .error (refusedDetail arg.toNat reason) → exec c s = .next (State.arbitrate { u with
      ia := { s.ia with cplClaims := s.ia.cplClaims
        ++ [⟨.cpl source tag 2 0 [0x0B, arg, BitVec.ofNat 8 reason.code], slot, true, false⟩] } }) := by
  have inMap : (0x400 : FabricAddr).toNat < 2 ^ 24 := by decide
  obtain ⟨-, -, refused, -, done⟩ := heldRequestIsServed s u slot rest _ hr hslot hq hu _ rfl
  refine ⟨fun v hw => ?_, fun reason hw => ?_⟩
  · exact hc.trans (done hpermit inMap _ v .nothing rfl ((State.writeSpace_command code arg).trans hw) _ rfl)
  · have payload : FaultCode.refused.code :: beBytes 2 (detailOf arg.toNat reason.code).toNat = [0x0B, arg, BitVec.ofNat 8 reason.code] := by
      have bytes := refusal_payload arg.toNat reason
      rwa [BitVec.ofNat_toNat, BitVec.setWidth_eq] at bytes
    rw [hc, refused hpermit inMap _ _ (.inr ⟨_, rfl, (State.writeSpace_command code arg).trans hw⟩), payload]
    rfl

end

/-! ### CLEAR_COUNTERS and CLEAR_QUIET (R64, R178, R179) -/

theorem State.runCommand_clearCounters (s : State) (arg : Byte) :
    s.runCommand 3 arg = .ok ({ s with mu := { s.mu with counters := Vector.replicate 13 0 } }, .nothing) := rfl

/-- Settles O24. -/
theorem clearCounters : Obligations.ClearCounters := by
  unfold Obligations.ClearCounters
  refine ⟨fun s l xno arg h => ?line, fun s slot rest tag source arg hr hslot hq hpermit => ?trunk⟩
  case line => exact exec_lineCommand_done (fun _ => rfl) h (State.runCommand_clearCounters _ arg) (by simp)
  case trunk =>
    have served := (trunkWritesAreServed s 0x000400 [3, arg] (.clearCounters .trunk arg) hr (by simp)).1 slot rest _ hslot hq rfl rfl
    exact (exec_trunkCommand hr hslot hq hpermit rfl served).1 _ (State.runCommand_clearCounters _ arg)

section
variable {s : State} {arg : Byte}

theorem State.runCommand_clearQuiet : (∀ t, s.clearQuietSlot arg = .ok t → s.runCommand 4 arg = .ok (t.arbitrate, .nothing))
    ∧ ∀ e, s.clearQuietSlot arg = .error e → s.runCommand 4 arg = .error e := by
  have code : (4 : Byte).toNat = 4 := rfl
  refine ⟨fun t h => ?_, fun e h => ?_⟩ <;> simp only [State.runCommand, code, h]

theorem slotOf_some {i : SlotIx} (h : arg.toNat = i.val) : slotOf arg = some i := by
  have below : arg.toNat < 32 := h ▸ i.isLt
  rw [slotOf, dif_pos below]
  exact congrArg some (Fin.ext h)

theorem State.clearQuietSlot_beyond (h : 31 < arg.toNat) : s.clearQuietSlot arg = .error (refusedDetail arg.toNat .badValue) := by
  simp only [State.clearQuietSlot, (slotOf_none arg).2 h]

variable {i : SlotIx}

theorem State.clearQuietSlot_unused (hi : arg.toNat = i.val) (h : (look s.tu.nodes i).state = .unused) :
    s.clearQuietSlot arg = .error (refusedDetail arg.toNat .nodeSlot) := by
  simp only [State.clearQuietSlot, slotOf_some hi, if_pos h]

theorem State.clearQuietSlot_used (hi : arg.toNat = i.val) (h : (look s.tu.nodes i).state ≠ .unused) : s.clearQuietSlot arg
    = .ok { s with tu := { s.tu with nodes := put s.tu.nodes i { look s.tu.nodes i with state := .live, count := 0 } } } := by
  simp only [State.clearQuietSlot, slotOf_some hi, if_neg h]
  rfl

end

/-- Settles O25. -/
theorem clearQuiet : Obligations.ClearQuiet := by
  unfold Obligations.ClearQuiet
  refine ⟨fun s l xno arg h => ⟨fun harg => ?beyond, fun i hi => ⟨fun hn => ?unused, fun hn => ?used⟩⟩,
    fun s u slot rest tag source arg hr hslot hq hpermit hu => ?trunk⟩
  case beyond => exact exec_lineCommand_refused (fun _ => rfl) h (State.runCommand_clearQuiet.2 _ (State.clearQuietSlot_beyond harg))
  case unused => exact exec_lineCommand_refused (fun _ => rfl) h (State.runCommand_clearQuiet.2 _ (State.clearQuietSlot_unused hi hn))
  case used =>
    exact ⟨_, exec_lineCommand_done (fun _ => rfl) h
      (State.runCommand_clearQuiet.1 _ (State.clearQuietSlot_used (s := { s with lp := l }) hi hn)) (by simp), rfl⟩
  case trunk =>
    have served := (trunkWritesAreServed s 0x000400 [4, arg] (.clearQuiet .trunk arg) hr (by simp)).1 slot rest _ hslot hq rfl rfl
    obtain ⟨done, refused⟩ := exec_trunkCommand hr hslot hq hpermit hu served
    have tables : u.tu = s.tu := by rw [hu]
    rw [← tables]
    exact ⟨fun harg => refused _ (State.runCommand_clearQuiet.2 _ (State.clearQuietSlot_beyond harg)),
      fun i hi => ⟨fun hn => refused _ (State.runCommand_clearQuiet.2 _ (State.clearQuietSlot_unused hi hn)),
        fun hn => ⟨_, done _ (State.runCommand_clearQuiet.1 _ (State.clearQuietSlot_used hi hn)), rfl⟩⟩⟩

/-! ### The other commands from the line (R130, R142, R176, R177) -/

theorem State.flushed_eq (s : State) : s.flushed = { s with
    ru := ⟨mapIx (fun _ b => if b.valid then Buffer.invalid else b) s.ru.buffers, []⟩
    xu := { s.xu with
      records := mapIx (fun _ e =>
        if (e.state = .queued ∨ e.state = .active) ∧ e.kind = .read ∧ e.retain = some true then { e with retain := some false } else e)
        s.xu.records } } := by
  have voided := s.xu.void_eq fun _ => true
  simp only [and_true] at voided
  rw [← RetentionUnit.invalidate_all, ← voided]
  rfl

/-- TP in ISOLATED is the same from every state: what leaving changes of it, SEGRESET sets (R149, R165). -/
theorem State.segmentReset_tp (s : State) : s.segmentReset.tp = { s.tp with
    link := .isolated, requestLimit := 0, requestConsumed := 0, pushLimit := 0, pushConsumed := 0, grantedRequest := 0
    grantedPush := 0, slots := Vector.replicate 2 none, unserved := []
    segmentHold := some (Config.ms s.mu.settings.segmentHold)
    attemptTimer := none, capInterval := none, settle := none, linkLoss := none } := by
  rw [State.segmentReset_eq]
  obtain ⟨-, he⟩ | ⟨-, he⟩ | ⟨-, he⟩ | ⟨-, he⟩ := State.leaveLink_cases .segreset s
  · rw [he, State.leaveUp_eq]
  · rw [he, State.leaveSettle_eq]
  · rw [he, State.leaveNegotiate_eq]
  · rw [he]

theorem State.leaveLink_other {s : State} (reason : DownReason) (h1 : s.tp.link ≠ .negotiate) (h2 : s.tp.link ≠ .settle) (h3 : s.tp.link ≠ .up) :
    s.leaveLink reason = s := by
  obtain ⟨hl, -⟩ | ⟨hl, -⟩ | ⟨hl, -⟩ | ⟨-, he⟩ := State.leaveLink_cases reason s
  · exact absurd hl h3
  · exact absurd hl h2
  · exact absurd hl h1
  · exact he

/-- Leaving a state other than UP touches no exchange and brings no report. -/
theorem State.leaveLink_notUp {s : State} (reason : DownReason) (h : s.tp.link ≠ .up) :
    (s.leaveLink reason).xu = s.xu ∧ (s.leaveLink reason).reports = s.reports := by
  obtain ⟨hl, -⟩ | ⟨-, he⟩ | ⟨-, he⟩ | ⟨-, he⟩ := State.leaveLink_cases reason s
  · exact absurd hl h
  all_goals
    rw [he]
    exact ⟨rfl, rfl⟩

theorem exec_lineSegreset {s : State} {l : LinePort} {xno : Xno} {arg : Byte} (h : s.TakesNew (unitZeroRequest xno 0x000400 [2, arg]) l) :
    exec (.segreset (.line xno) arg) s = .next { State.segmentReset { s with lp := l } with
      lp := l.givesStored (unitZeroRequest xno 0x000400 [2, arg]) .done [] .nothing } := by
  have applied : (s.onLp fun _ => l).writeSpace 0x400 [2, arg] = .ok (s.onLp fun _ => l, .segreset) := State.writeSpace_command 2 arg
  rw [exec_lineWrite (fun _ => rfl) h]
  have offset : (unitZeroRequest xno 0x000400 [2, arg]).offset = 0x400 := unitZeroRequest_offset ..
  have port : (State.segmentReset (s.onLp fun _ => l)).lp = l := by
    rw [State.segmentReset_eq]
    rfl
  simp only [State.managementWrite, offset, unitZeroRequest_data, applied, if_true, State.answer_stored, port]
  rfl

/-- Settles O26. -/
theorem commandsTakeEffect : Obligations.CommandsTakeEffect := by
  unfold Obligations.CommandsTakeEffect
  refine ⟨fun s l xno arg => ⟨fun h => ?flush, fun h => ?drop⟩, fun s l xno arg => ⟨fun h => ?restart, fun h => ?segreset⟩⟩
  case flush =>
    rw [exec_lineCommand_done (fun _ => rfl) h rfl (by simp), State.flushed_eq]
    rfl
  case drop =>
    rw [exec_lineCommand_done (fun _ => rfl) h rfl (by simp)]
    rfl
  case restart =>
    rw [exec_lineCommand_done (fun _ => rfl) h rfl (by simp)]
    rfl
  case segreset =>
    refine ⟨_, exec_lineSegreset h, ?_, rfl, ?_, State.segmentReset_tp _, fun hl => ?_, fun hl => ?_, fun h1 h2 h3 => ?_, fun hl => ?_, fun hl => ?_⟩
    · rw [State.segmentReset_eq]
    · simp [State.trst, State.segmentReset_tp]
    · rw [State.segmentReset_eq, State.leaveLink_negotiate (s := { s with lp := l }) _ hl]
      rfl
    · rw [State.segmentReset_eq, State.leaveLink_settle (s := { s with lp := l }) _ hl]
      rfl
    · rw [State.segmentReset_eq, State.leaveLink_other (s := { s with lp := l }) _ h1 h2 h3]
    · rw [State.segmentReset_eq]
      exact State.leaveLink_notUp (s := { s with lp := l }) _ hl
    · rw [State.segmentReset_eq, State.leaveLink_up (s := { s with lp := l }) _ hl, State.leaveUp_eq]
      exact ⟨rfl, rfl, rfl⟩

end Sys2Proof.Machine
end
